-- ==== Sys2Proof/Word.lean ====
section
/-! DEFINITION. The words of the ports: a byte of a text message, a command word, and the two
directions a command can name. -/

namespace Sys2Proof

/-- One byte of a text message (30_encoding R80, R82). -/
abbrev Byte := BitVec 8

/-- The command word `w` of a tick (30_encoding R70, R71). -/
abbrev CommandWord := BitVec 8

/-- `Direction` (00_scope R13, 10_state R26). -/
inductive Direction where
  | downward
  | upward
deriving DecidableEq, Repr, Inhabited

end Sys2Proof
end

