-- ==== Sys2Proof/Config.lean ====
section
/-! DEFINITION. The compiled-in constants of the block, and the host's inputs that nothing fixes. -/

namespace Sys2Proof

/-- The implementation parameters of 00_scope R7. They are fixed for the run and no operation writes
them (10_state R35). -/
structure Config where
  /-- `N` (FILTER_SAMPLES): capacity of the filter ring buffer. -/
  n : Nat
  /-- `MAX_CURRENT`: the interlock's absolute ceiling, mA. -/
  maxCurrent : Int
  /-- `DOWN_THRESHOLD`: OPEN_CHIP seated, mA. -/
  downThreshold : Int
  /-- `UP_THRESHOLD`: CLOSE_CHIP torque reached, mA. -/
  upThreshold : Int
  /-- `STARTING_TIME`: settle duration, ms. -/
  startingTime : Nat
  /-- `NOMINAL_VOLTAGE`, V. -/
  nominalVoltage : ℚ
  /-- `NOMINAL_SPEED`, rpm. -/
  nominalSpeed : ℚ
  /-- `NOMINAL_CURRENT`, mA; read by no rule (R7). -/
  nominalCurrent : Int
  /-- `DOWN_SPEED`: the fixed speed of OPEN_CHIP, rpm. -/
  downSpeed : ℚ
  /-- `UP_SPEED`: the fixed speed of CLOSE_CHIP, rpm. -/
  upSpeed : ℚ
  /-- `FULL_SCALE` of the PWM duty, counts. -/
  fullScale : Nat
  /-- `RAW_MIN`: least raw current sample. -/
  rawMin : Int
  /-- `RAW_MAX`: greatest raw current sample. -/
  rawMax : Int
deriving DecidableEq, Repr

/-- The example configuration EX of 95_test_vectors section 0. DESIGN CHOICE (log 2, unsafe for a
claim about `State.reset` alone): it stands in the one reset state the interface asks for; the spec
leaves every constant open, and every other definition takes the configuration from the state. -/
def Config.ex : Config where
  n := 4
  maxCurrent := 1000
  downThreshold := 600
  upThreshold := 500
  startingTime := 100
  nominalVoltage := 12
  nominalSpeed := 100
  nominalCurrent := 500
  downSpeed := 50
  upSpeed := 25
  fullScale := 255
  rawMin := -5000
  rawMax := 5000

/-- What the host puts on the command link in a tick: a word and a value on the command port
(30_encoding R70), or one delimited text message (R82, R88). -/
inductive HostCommand where
  | port (w : CommandWord) (val : ℚ)
  | text (m : List Byte)
deriving DecidableEq, Repr, Inhabited

/-- One free tick of the host: a command, a raw sample, and how much the clock moves before the
command and between the command and the loop. Every input record that meets the host duties of
70_reset_and_hazards R241 arises from such a draw. -/
structure HostDraw where
  cmd : HostCommand
  raw : Int
  commandDelay : Nat
  loopDelay : Nat
deriving DecidableEq, Repr, Inhabited

/-- FREE VALUE (log 5, safe): what the host supplies in a tick for which the state lists no input.
It has no body, so nothing can be proved of it beyond what holds for every input (R240). -/
opaque hostDraw : Nat → HostDraw

end Sys2Proof
end

