-- ==== Sys2Proof/Syntax.lean ====
section
/-! DEFINITION. The instructions: one constructor for each row of the opcode map. -/

namespace Sys2Proof

/-- The operations of the opcode map (30_encoding R74), as `Decode` of R75 yields them. The value
operand `val` is no part of the word (R71): it is a port of its own, read by the two commands that
use it (R72). -/
inductive Instr where
  /-- No command this tick; also every reserved word (41_commands R120, 30_encoding R76). -/
  | nop
  /-- `setEnabled(false)` (41_commands R122). -/
  | dcStop
  /-- `setEnabled(true)` (41_commands R121). -/
  | dcStart
  /-- `setDirection(d)` (41_commands R123). -/
  | dcMotorDir (d : Direction)
  /-- `setSpeed(val)` (41_commands R125). -/
  | dcMotorSpeed
  /-- `openChip()` (41_commands R127). -/
  | openChip
  /-- `closeChip()` (41_commands R128). -/
  | closeChip
  /-- `setVoltage(val)` (41_commands R124). -/
  | setVoltage
deriving DecidableEq, Repr, Inhabited

end Sys2Proof
end

