-- ==== Sys2Proof/Decode.lean ====
section
/-! DEFINITION. The command word: its decoder and encoder (30_encoding section 2), and the text
decoder (section 3). -/

namespace Sys2Proof

/-! ## The command word -/

/-- `op`, w[3:0] (30_encoding R71). -/
def wordOp (w : CommandWord) : BitVec 4 := w.extractLsb' 0 4

/-- `d`, w[4] (R71). -/
def wordD (w : CommandWord) : BitVec 1 := w.extractLsb' 4 1

/-- `rsv`, w[7:5] (R71). -/
def wordRsv (w : CommandWord) : BitVec 3 := w.extractLsb' 5 3

/-- The direction a direction bit names: 0 is DOWNWARD, 1 is UPWARD (R72, 10_state R26). -/
def directionOfBit (b : BitVec 1) : Direction := if b = 1 then .upward else .downward

/-- The 1-bit code of a direction (10_state R26). -/
def directionBit : Direction → BitVec 1
  | .downward => 0
  | .upward => 1

/-- The words no row of the opcode map matches: op 0x8 to 0xF, any word with `rsv != 0`, and any
word with `d = 1` and `op != 0x3` (30_encoding R76). -/
def isReserved (w : CommandWord) : Bool :=
  decide (8 ≤ (wordOp w).toNat) || decide (wordRsv w ≠ 0)
    || (decide (wordD w = 1) && decide (wordOp w ≠ 3))

/-- `Decode` (30_encoding R75), total on all 256 words. -/
def decode (w : CommandWord) : Instr :=
  if wordRsv w ≠ 0 then .nop
  else if wordOp w = 3 then .dcMotorDir (directionOfBit (wordD w))
  else if wordD w ≠ 0 then .nop
  else
    match (wordOp w).toNat with
    | 0 => .nop
    | 1 => .dcStop
    | 2 => .dcStart
    | 4 => .dcMotorSpeed
    | 5 => .openChip
    | 6 => .closeChip
    | 7 => .setVoltage
    | _ => .nop

/-- The word with fields `rsv = 0`, `d` and `op` (30_encoding R71). -/
def commandWord (d : BitVec 1) (op : BitVec 4) : CommandWord := (0 : BitVec 3) ++ d ++ op

/-- The command word of an operation (30_encoding R74). -/
def encode : Instr → CommandWord
  | .nop => commandWord 0 0x0
  | .dcStop => commandWord 0 0x1
  | .dcStart => commandWord 0 0x2
  | .dcMotorDir d => commandWord (directionBit d) 0x3
  | .dcMotorSpeed => commandWord 0 0x4
  | .openChip => commandWord 0 0x5
  | .closeChip => commandWord 0 0x6
  | .setVoltage => commandWord 0 0x7

/-- The `match` column of the opcode map (30_encoding R74). -/
def rowMatch : Instr → CommandWord
  | .nop => 0x00
  | .dcStop => 0x01
  | .dcStart => 0x02
  | .dcMotorDir _ => 0x03
  | .dcMotorSpeed => 0x04
  | .openChip => 0x05
  | .closeChip => 0x06
  | .setVoltage => 0x07

/-- The `mask` column of the opcode map (30_encoding R74). -/
def rowMask : Instr → CommandWord
  | .dcMotorDir _ => 0xEF
  | .nop | .dcStop | .dcStart | .dcMotorSpeed | .openChip | .closeChip | .setVoltage => 0xFF

/-- The instruction read from an opcode-table row's bits: every command word is 8 bits long
(30_encoding R73). -/
def decodeTableWord (nbits w : Nat) : Option Instr :=
  if nbits = 8 ∧ w < 256 then some (decode (BitVec.ofNat 8 w)) else none

/-! ## The text protocol -/

/-- ASCII text as the bytes of a message (30_encoding R80). -/
def ascii (cs : List Char) : List Byte := cs.map fun c => BitVec.ofNat 8 c.toNat

/-- `DC_STOP` (30_encoding R81). -/
def tokenDcStop : List Byte := ascii ['D', 'C', '_', 'S', 'T', 'O', 'P']
/-- `DC_START` (R81). -/
def tokenDcStart : List Byte := ascii ['D', 'C', '_', 'S', 'T', 'A', 'R', 'T']
/-- `DC_MOTOR_DIR` (R81). -/
def tokenDcMotorDir : List Byte :=
  ascii ['D', 'C', '_', 'M', 'O', 'T', 'O', 'R', '_', 'D', 'I', 'R']
/-- `DC_MOTOR_SPEED` (R81). -/
def tokenDcMotorSpeed : List Byte :=
  ascii ['D', 'C', '_', 'M', 'O', 'T', 'O', 'R', '_', 'S', 'P', 'E', 'E', 'D']
/-- `OPEN_CHIP` (R81). -/
def tokenOpenChip : List Byte := ascii ['O', 'P', 'E', 'N', '_', 'C', 'H', 'I', 'P']
/-- `CLOSE_CHIP` (R81). -/
def tokenCloseChip : List Byte := ascii ['C', 'L', 'O', 'S', 'E', '_', 'C', 'H', 'I', 'P']

/-- The separator `-`, byte 0x2D (30_encoding R83). -/
def dash : Byte := 0x2D
/-- The decimal point `.`. -/
def point : Byte := 0x2E
/-- The sign `+`. -/
def plus : Byte := 0x2B

/-- The parts before and after the first `sep`, `none` where there is no `sep`. -/
def splitFirst (sep : Byte) : List Byte → Option (List Byte × List Byte)
  | [] => none
  | c :: cs =>
    if c = sep then some ([], cs)
    else (splitFirst sep cs).map fun p => (c :: p.1, p.2)

/-- An ASCII digit. -/
def isDigit (c : Byte) : Bool := decide (0x30 ≤ c.toNat) && decide (c.toNat ≤ 0x39)

/-- The natural number a string of digits denotes, most significant digit first. -/
def digitsValue (ds : List Byte) : Nat := ds.foldl (fun v c => 10 * v + (c.toNat - 0x30)) 0

/-- `digit+ ( "." digit* )? | "." digit+`, read as the exact rational it denotes
(30_encoding R85). -/
def unsignedDecimal (v : List Byte) : Option ℚ :=
  match splitFirst point v with
  | none => if v ≠ [] ∧ v.all isDigit = true then some (digitsValue v : ℚ) else none
  | some (ip, fp) =>
    if ip ++ fp ≠ [] ∧ (ip ++ fp).all isDigit = true then
      some ((digitsValue (ip ++ fp) : ℚ) / 10 ^ fp.length)
    else none

/-- The decimal grammar of 30_encoding R85, with its optional sign; `none` where the value does not
match it. -/
def decimalValue : List Byte → Option ℚ
  | [] => none
  | c :: cs =>
    if c = dash then (unsignedDecimal cs).map fun q => -q
    else if c = plus then unsignedDecimal cs
    else unsignedDecimal (c :: cs)

/-- The command a token and its value select (30_encoding R84, R85, R86). -/
def tokenCommand (token value : List Byte) : CommandWord × ℚ :=
  if token = tokenDcStop then (0x01, 0)
  else if token = tokenDcStart then (0x02, 0)
  else if token = tokenDcMotorDir then
    if value = ascii ['0'] then (0x03, 0)
    else if value = ascii ['1'] then (0x13, 0)
    else (0x00, 0)
  else if token = tokenDcMotorSpeed then
    match decimalValue value with
    | some q => (0x04, q)
    | none => (0x00, 0)
  else if token = tokenOpenChip then (0x05, 0)
  else if token = tokenCloseChip then (0x06, 0)
  else (0x00, 0)

/-- `TextDecode` (30_encoding R87). -/
def textDecode (m : List Byte) : CommandWord × ℚ :=
  match splitFirst dash m with
  | none => (0x00, 0)
  | some (token, value) => tokenCommand token value

/-- The word and value a tick's command link carries: the port's own, or the message's
(30_encoding R70, R87, R88). -/
def HostCommand.resolve : HostCommand → CommandWord × ℚ
  | .port w val => (w, val)
  | .text m => textDecode m

end Sys2Proof
end

