-- ==== Sys2Proof/WellFormed.lean ====
section
/-! DEFINITION. The configuration constraints of 00_scope R9. Every term of `Instr` is well-formed:
the command set has no illegal operand (30_encoding R71, R72, R76). -/

namespace Sys2Proof

/-- 00_scope R9: a configuration that breaks one of these is refused. -/
def Config.wf (c : Config) : Bool :=
  decide (1 ≤ c.n) && decide (0 < c.nominalSpeed) && decide (1 ≤ c.fullScale)
    && decide (c.rawMin ≤ c.rawMax) && decide (c.downThreshold < c.maxCurrent)
    && decide (c.upThreshold < c.maxCurrent)

end Sys2Proof
end

