-- ==== Sys2Proof/Machine/State.lean ====
section
/-! DEFINITION. The state of the block (10_state R20), the host's side of it, and the reasons a step
can stop. -/

namespace Sys2Proof.Machine

/-- `OperatingState` (00_scope R13, 10_state R23). -/
inductive OperatingState where
  | idle
  | userControl
  | starting
  | openChip
  | closeChip
deriving DecidableEq, Repr, Inhabited

/-- The three values one signal emission writes; also an emission event (43_signal R180, R183). -/
structure Outputs where
  dir : BitVec 1
  brake : BitVec 1
  pwm : Nat
deriving DecidableEq, Repr, Inhabited

/-- The input record of one tick as the rules read it (42_tick R150, 70_reset_and_hazards R240):
the command word and value after text decoding, the command time, the raw sample, the loop time. -/
structure Ports where
  w : CommandWord
  val : ℚ
  tc : Nat
  raw : Int
  tl : Nat
deriving DecidableEq, Repr, Inhabited

/-- What the host supplies for one tick (70_reset_and_hazards R240), its command still as it came
over the link (30_encoding R88). -/
structure TickInput where
  cmd : HostCommand
  tc : Nat
  raw : Int
  tl : Nat
deriving DecidableEq, Repr, Inhabited

/-- The machine. The eleven fields from `enabled` to `outPwm` are the block's state record
(10_state R20), complete; the fields around them are the constants of the run and the host's side,
which the rules read but the record does not hold (logs 1, 4, 5, 8, 23). -/
structure State where
  /-- The configuration constants, read only (00_scope R7, 10_state R35). -/
  cfg : Config
  /-- Whether the outputs drive the motor (10_state R22). -/
  enabled : Bool
  /-- The current machine state (R23). -/
  state : OperatingState
  /-- The state to enter when STARTING ends (R25). -/
  pendingState : OperatingState
  /-- R26. -/
  direction : Direction
  /-- The commanded drive level, volts in [0, 12] (R27). -/
  voltage : ℚ
  /-- When the current STARTING phase began, ms (R28). -/
  phaseStartTime : Nat
  /-- The filter ring buffer, slot 0 first: the one memory (R29, 20_memory R50). -/
  buf : List Int
  /-- The slot the next sample is written to (R30). -/
  cursor : Nat
  /-- Direction line (R32). -/
  outDir : BitVec 1
  /-- Enable/brake line, 1 = engaged (R32). -/
  outBrake : BitVec 1
  /-- PWM duty (R32). -/
  outPwm : Nat
  /-- Every emission event since reset, oldest first (43_signal R183). -/
  emissions : List Outputs
  /-- The input record of the current tick, or of the last one run. -/
  ports : Ports
  /-- Tick inputs the host has already decided on, next first (10_state R33). -/
  supplied : List TickInput
  /-- How many ticks have run; the index of the next free host draw. -/
  ticks : Nat
deriving DecidableEq, Repr

/-- Why a step faults. No operation of the block faults (60_exceptions R200). -/
inductive Fault where
  /-- Raised by the start of a tick (`fetch`) when the filter is not the N slots with a cursor in
  [0, N-1] that 10_state R20 gives the block: a tick would touch a slot that does not exist
  (20_memory R55). Safe; no run from reset reaches it. -/
  | filterShape
deriving DecidableEq, Repr

/-- Why a step is refused. -/
inductive Refusal where
  /-- Raised by an arm of `exec` for an instruction without a meaning. Safe. No arm does. -/
  | notModelled (mnemonic : String)
  /-- Raised by the start of a tick (`fetch`) when the configuration breaks 00_scope R9, which no
  rule gives a meaning to. Safe. -/
  | badConfiguration
  /-- Raised by the start of a tick (`fetch`) when the supplied times are not monotonic: such a run
  is outside the model (70_reset_and_hazards R241, decision D25). Safe. -/
  | clockRunsBack
  /-- Raised by the start of a tick (`fetch`) when the supplied sample is outside
  [RAW_MIN, RAW_MAX]: such a run is outside the model (R241, D25). Safe. -/
  | sampleOutOfRange
deriving DecidableEq, Repr

/-- The reset state of a block with configuration `c` (10_state R38, 70_reset_and_hazards R230).
DESIGN CHOICE (logs 4, 5, 8, 23): no input supplied yet, no event yet, the ports at zero. -/
def State.resetWith (c : Config) : State where
  cfg := c
  enabled := false
  state := .idle
  pendingState := .idle
  direction := .downward
  voltage := 0
  phaseStartTime := 0
  buf := List.replicate c.n 0
  cursor := 0
  outDir := 0
  outBrake := 1
  outPwm := 0
  emissions := []
  ports := ⟨0, 0, 0, 0, 0⟩
  supplied := []
  ticks := 0

/-- The machine right after reset. DESIGN CHOICE (log 2, unsafe): its configuration is the spec's
example EX, since the spec leaves the constants open. -/
def State.reset : State := State.resetWith Config.ex

end Sys2Proof.Machine
end

