-- ==== Sys2Proof/Machine/Flags.lean ====
section
/-! DEFINITION. The block has no flags (10_state R34); what it tests instead are three threshold
comparators on the filtered current and one settle test on the clock. -/

namespace Sys2Proof.Machine

/-- `OVER_MAX` (40_filter R105). -/
def overMax (c : Config) (current : Int) : Bool := decide (current > c.maxCurrent)

/-- `OVER_DOWN` (40_filter R105). -/
def overDown (c : Config) (current : Int) : Bool := decide (current > c.downThreshold)

/-- `OVER_UP` (40_filter R105). -/
def overUp (c : Config) (current : Int) : Bool := decide (current > c.upThreshold)

/-- The STARTING settle test at loop time `tl` (42_tick R156). The subtraction is natural; the host
keeps `tl >= phaseStartTime` (70_reset_and_hazards R241; log 18). -/
def settled (s : State) (tl : Nat) : Bool := decide (tl - s.phaseStartTime > s.cfg.startingTime)

end Sys2Proof.Machine
end

