-- ==== Sys2Proof/Machine/Operands.lean ====
section
/-! DEFINITION. How operands become stored values: clamping, speeds to volts, the PWM duty, the
actuator pattern, and the binary codes. -/

namespace Sys2Proof.Machine

/-- `clamp(lo, hi, x)` (00_scope R11), on rationals. -/
def clamp (lo hi x : ℚ) : ℚ := min hi (max lo x)

/-- `clamp(lo, hi, x)` (00_scope R11), on integers. -/
def clampInt (lo hi x : Int) : Int := min hi (max lo x)

/-- `V_MAX`, 12 volts (00_scope R8). -/
def vMax : ℚ := 12

/-- The voltage SET_VOLTAGE stores for `v` (41_commands R124). -/
def clampVoltage (v : ℚ) : ℚ := clamp 0 vMax v

/-- `SpeedToVoltage` (41_commands R126). -/
def speedToVoltage (c : Config) (s : ℚ) : ℚ :=
  clamp 0 vMax (c.nominalVoltage * clamp 0 c.nominalSpeed s / c.nominalSpeed)

/-- `Duty` (43_signal R181). -/
def duty (c : Config) (v : ℚ) : Nat := (v * (c.fullScale : ℚ) / vMax).floor.toNat

/-- `dirbit` (43_signal R181): the same code as the direction's own (10_state R26). -/
def dirbit (d : Direction) : BitVec 1 := directionBit d

/-- The actuator pattern of a disabled motor, `(0, 1, 0)` (43_signal R181). -/
def disabledPattern : Outputs := ⟨0, 1, 0⟩

/-- `SignalMap` (43_signal R181). -/
def signalMap (c : Config) (enabled : Bool) (d : Direction) (v : ℚ) : Outputs :=
  if enabled then ⟨dirbit d, 0, duty c v⟩ else disabledPattern

/-- The 3-bit code of an operating state (10_state R24). -/
def OperatingState.code : OperatingState → BitVec 3
  | .idle => 0b000
  | .userControl => 0b001
  | .starting => 0b010
  | .openChip => 0b011
  | .closeChip => 0b100

/-- The operating state a 3-bit code shows; 0b101 to 0b111 are no state (10_state R24). -/
def OperatingState.ofCode (b : BitVec 3) : Option OperatingState :=
  match b.toNat with
  | 0 => some .idle
  | 1 => some .userControl
  | 2 => some .starting
  | 3 => some .openChip
  | 4 => some .closeChip
  | _ => none

/-- Whether DC_START, DC_MOTOR_DIR and SET_VOLTAGE apply in a state (41_commands R121, R123, R124,
R129). -/
def OperatingState.settable : OperatingState → Bool
  | .idle => true
  | .userControl => true
  | .starting => false
  | .openChip => false
  | .closeChip => false

/-- Whether the tick samples the current in a state (42_tick R151). -/
def OperatingState.samples : OperatingState → Bool
  | .idle => false
  | .userControl => true
  | .starting => false
  | .openChip => true
  | .closeChip => true

end Sys2Proof.Machine
end

