-- ==== Sys2Proof/Machine/Ops.lean ====
section
/-! DEFINITION. The named operations over the state: the filter buffer's access primitives and its
three operations (20_memory R51, 40_filter), signal emission (43_signal R180), the shared stop and
the shared entry to STARTING. The block takes no exceptions (60_exceptions R200); its one stop entry
is `emergencyStop` (R205). -/

namespace Sys2Proof.Machine

/-! ## The filter buffer -/

/-- The buffer's canonical form: N slots and a cursor in [0, N-1] (10_state R20, R30). -/
def Memory.wf (s : State) : Bool := decide (s.buf.length = s.cfg.n) && decide (s.cursor < s.cfg.n)

/-- `buf[i]` (20_memory R51); `none` where there is no slot `i`. -/
def readSlot (s : State) (i : Nat) : Option Int := s.buf[i]?

/-- `buf[i] <- v` (20_memory R51). -/
def writeSlot (s : State) (i : Nat) (v : Int) : State := { s with buf := s.buf.set i v }

/-- The cursor moves to the next slot, modulo N (40_filter R100). -/
def advanceCursor (s : State) : State := { s with cursor := (s.cursor + 1) % s.cfg.n }

/-- `FilterSample(raw)` (40_filter R100). -/
def filterSample (s : State) (raw : Int) : State := advanceCursor (writeSlot s s.cursor raw)

/-- `FilterReset()` (40_filter R102): every slot 0, the cursor kept. -/
def filterReset (s : State) : State := { s with buf := List.replicate s.cfg.n 0 }

/-- `tdiv(a, N)`: the quotient rounded toward zero (40_filter R104). -/
def tdivNat (a : Int) (n : Nat) : Int := Int.tdiv a (n : Int)

/-- `FilterAverage()` (40_filter R103): the exact sum of all slots over N. -/
def filterAverage (s : State) : Int := tdivNat s.buf.sum s.cfg.n

/-! ## Outputs -/

/-- The three output registers together. -/
def State.outputs (s : State) : Outputs := ⟨s.outDir, s.outBrake, s.outPwm⟩

/-- The actuator pattern the current fields map to (43_signal R181). -/
def State.signal (s : State) : Outputs := signalMap s.cfg s.enabled s.direction s.voltage

/-- `Emit()` (43_signal R180): latch the mapped outputs and record the event. -/
def emit (s : State) : State :=
  { s with
    outDir := s.signal.dir
    outBrake := s.signal.brake
    outPwm := s.signal.pwm
    emissions := s.emissions ++ [s.signal] }

/-! ## Stops and phase entry -/

/-- What every stop writes: `enabled <- false`, `voltage <- 0`, `state <- IDLE` (41_commands R122,
42_tick R153, R157, R158). -/
def disable (s : State) : State := { s with enabled := false, voltage := 0, state := .idle }

/-- The emergency stop (42_tick R153, 60_exceptions R205): disable and emit, the filter kept. -/
def emergencyStop (s : State) : State := emit (disable s)

/-- A threshold stop (42_tick R157, R158): disable and zero the filter; the branch emits. -/
def thresholdStop (s : State) : State := filterReset (disable s)

/-- Entry to STARTING at command time `tc` (41_commands R121, R127, R128). -/
def enterStarting (s : State) (next : OperatingState) (tc : Nat) : State :=
  { s with enabled := true, state := .starting, pendingState := next, phaseStartTime := tc }

end Sys2Proof.Machine
end

