-- ==== Sys2Proof/Machine/Commands.lean ====
section
/-! DEFINITION. `ApplyCommand` (42_tick R150): the meaning of each command (41_commands). A command
reads `val` and `tc` at the ports of the current tick and never faults. -/

namespace Sys2Proof.Machine

/-- What a meaning answers. -/
abbrev Result := Host.Outcome State Fault Refusal

/-- NOP (41_commands R120). -/
def execNop (s : State) : Result := .next s

/-- DC_STOP, SET_ENABLED_FALSE (41_commands R122). -/
def execDcStop (s : State) : Result := .next (emit (disable s))

/-- DC_START, SET_ENABLED_TRUE (41_commands R121). -/
def execDcStart (s : State) : Result :=
  .next (if s.state.settable then enterStarting s .userControl s.ports.tc else s)

/-- DC_MOTOR_DIR, SET_DIRECTION (41_commands R123). -/
def execDcMotorDir (d : Direction) (s : State) : Result :=
  .next (if s.state.settable then { s with direction := d } else s)

/-- DC_MOTOR_SPEED, SET_SPEED (41_commands R125): no state gate. -/
def execDcMotorSpeed (s : State) : Result :=
  .next { s with voltage := speedToVoltage s.cfg s.ports.val }

/-- OPEN_CHIP (41_commands R127). -/
def execOpenChip (s : State) : Result :=
  .next (enterStarting
    { s with direction := .downward, voltage := speedToVoltage s.cfg s.cfg.downSpeed }
    .openChip s.ports.tc)

/-- CLOSE_CHIP (41_commands R128). -/
def execCloseChip (s : State) : Result :=
  .next (enterStarting
    { s with direction := .upward, voltage := speedToVoltage s.cfg s.cfg.upSpeed }
    .closeChip s.ports.tc)

/-- SET_VOLTAGE (41_commands R124). -/
def execSetVoltage (s : State) : Result :=
  .next (if s.state.settable then { s with voltage := clampVoltage s.ports.val } else s)

end Sys2Proof.Machine
end

