-- ==== Sys2Proof/Machine/Dispatch.lean ====
section
/-! DEFINITION. One arm per instruction: `exec` applies the tick's command (42_tick R150). -/

namespace Sys2Proof.Machine

def exec (i : Instr) (s : State) : Host.Outcome State Fault Refusal :=
  match i with
  | .nop => Sys2Proof.Machine.execNop s
  | .dcStop => Sys2Proof.Machine.execDcStop s
  | .dcStart => Sys2Proof.Machine.execDcStart s
  | .dcMotorDir d => Sys2Proof.Machine.execDcMotorDir d s
  | .dcMotorSpeed => Sys2Proof.Machine.execDcMotorSpeed s
  | .openChip => Sys2Proof.Machine.execOpenChip s
  | .closeChip => Sys2Proof.Machine.execCloseChip s
  | .setVoltage => Sys2Proof.Machine.execSetVoltage s

end Sys2Proof.Machine
end

