-- ==== Sys2Proof/Machine/Input.lean ====
section
/-! DEFINITION. The host's side of a tick (70_reset_and_hazards section 2): which input record the
tick gets, whether it meets the host's duties, and latching it at the ports. -/

namespace Sys2Proof.Machine

/-- The free input of a tick for which the state lists none (log 5): any command, any sample in
[RAW_MIN, RAW_MAX], any times that meet 70_reset_and_hazards R241. -/
def drawnInput (s : State) (h : HostDraw) : TickInput where
  cmd := h.cmd
  tc := s.ports.tl + h.commandDelay
  raw := clampInt s.cfg.rawMin s.cfg.rawMax h.raw
  tl := s.ports.tl + h.commandDelay + h.loopDelay

/-- The input of the next tick: the first one supplied, else a free one. -/
def nextInput (s : State) : TickInput :=
  match s.supplied with
  | [] => drawnInput s (hostDraw s.ticks)
  | i :: _ => i

/-- The clock duty of 70_reset_and_hazards R241: `tl(k-1) <= tc(k) <= tl(k)`. -/
def clockDuty (s : State) (i : TickInput) : Bool :=
  decide (s.ports.tl ≤ i.tc) && decide (i.tc ≤ i.tl)

/-- The sample duty of 70_reset_and_hazards R241. -/
def sampleDuty (s : State) (i : TickInput) : Bool :=
  decide (s.cfg.rawMin ≤ i.raw) && decide (i.raw ≤ s.cfg.rawMax)

/-- The input record as the rules read it, its message decoded (30_encoding R87). -/
def TickInput.toPorts (i : TickInput) : Ports where
  w := i.cmd.resolve.1
  val := i.cmd.resolve.2
  tc := i.tc
  raw := i.raw
  tl := i.tl

/-- The state with the input at its ports and off the list. -/
def latch (s : State) (i : TickInput) : State :=
  { s with ports := i.toPorts, supplied := s.supplied.tail, ticks := s.ticks + 1 }

/-- The start of a tick: take the next input (70_reset_and_hazards R240). It stops where the
configuration breaks 00_scope R9, where the filter is not the block's (20_memory R55), and where
the input breaks a host duty (R241). -/
def fetch (s : State) : Host.Outcome State Fault Refusal :=
  if s.cfg.wf = false then .refused .badConfiguration
  else if Memory.wf s = false then .fault .filterShape
  else if clockDuty s (nextInput s) = false then .refused .clockRunsBack
  else if sampleDuty s (nextInput s) = false then .refused .sampleOutOfRange
  else .next (latch s (nextInput s))

/-- An input that carries the word `w` and meets the host's duties: the clock stands still, the
sample is the one in range nearest to 0, the value is 0. DESIGN CHOICE (log 4). -/
def quietInput (s : State) (w : CommandWord) : TickInput where
  cmd := .port w 0
  tc := s.ports.tl
  raw := clampInt s.cfg.rawMin s.cfg.rawMax 0
  tl := s.ports.tl

end Sys2Proof.Machine
end

