-- ==== Sys2Proof/Machine/Tick.lean ====
section
/-! DEFINITION. `Loop`, the per-tick step (42_tick R151 to R159), on the sample and the loop time at
the ports. -/

namespace Sys2Proof.Machine

/-- Step 1, sampling (42_tick R151). -/
def sampleStep (s : State) : State :=
  if s.state.samples then filterSample s s.ports.raw else s

/-- Step 3's test: the over-current interlock (42_tick R153). -/
def interlockFires (s : State) (current : Int) : Bool :=
  decide (s.state ≠ .starting) && overMax s.cfg current

/-- Step 4, STARTING before its emission (42_tick R156). -/
def startingExit (s : State) : State :=
  if settled s s.ports.tl then { filterReset s with state := s.pendingState } else s

/-- Step 4, OPEN_CHIP before its emission (42_tick R157). -/
def openChipStop (s : State) (current : Int) : State :=
  if overDown s.cfg current then thresholdStop s else s

/-- Step 4, CLOSE_CHIP before its emission (42_tick R158). -/
def closeChipStop (s : State) (current : Int) : State :=
  if overUp s.cfg current then thresholdStop s else s

/-- Step 4, the branch of the state (42_tick R154 to R158). -/
def branch (s : State) (current : Int) : State :=
  match s.state with
  | .idle => s
  | .userControl => emit s
  | .starting => emit (startingExit s)
  | .openChip => emit (openChipStop s current)
  | .closeChip => emit (closeChipStop s current)

/-- Steps 2 to 4 after the sampling: average, then interlock or branch (42_tick R159). -/
def judge (s : State) : State :=
  if interlockFires s (filterAverage s) then emergencyStop s else branch s (filterAverage s)

/-- `Loop` (42_tick R159). -/
def loop (s : State) : State := judge (sampleStep s)

end Sys2Proof.Machine
end

