-- ==== Sys2Proof/Machine/Step.lean ====
section
/-! DEFINITION. One step of the machine is one tick (42_tick R150): take the input, apply its
command, run `Loop`. -/

namespace Sys2Proof.Machine

/-- `Tick` (42_tick R150). -/
def step (s : State) : Host.Outcome State Fault Refusal :=
  match fetch s with
  | .next t =>
    match exec (decode t.ports.w) t with
    | .next u => .next (loop u)
    | .fault r => .fault r
    | .refused r => .refused r
  | .fault r => .fault r
  | .refused r => .refused r

/-- `s` with the command word `w` as the next thing the host supplies, at a quiet input (log 4). A
command word is 8 bits whatever `nbits` says (30_encoding R73). -/
def State.withFetchWord (s : State) (nbits w : Nat) : State :=
  { s with supplied := quietInput s (BitVec.ofNat 8 (w % 2 ^ nbits)) :: s.supplied }

end Sys2Proof.Machine
end

