-- ==== Sys2Proof/Machine/Listing.lean ====
section
/-! DEFINITION. The program listing syntax (30_encoding R88): a run written as one line per tick,
read into the tick inputs it stands for. DESIGN CHOICE (log 20): words are separated by spaces and
lines by newlines, a `;` outside a quoted message opens a comment, a line with no word is skipped. -/

namespace Sys2Proof.Machine

/-- The ASCII bytes the listing uses as punctuation. -/
def space : Byte := 0x20
/-- Newline. -/
def newline : Byte := 0x0A
/-- The quote around a text message. -/
def quote : Byte := 0x22
/-- `;` opens a comment. -/
def semicolon : Byte := 0x3B

/-- A word closed by a separator; an empty word is none. -/
def pushWord (acc : List Byte) (rest : List (List Byte)) : List (List Byte) :=
  if acc = [] then rest else acc.reverse :: rest

/-- The words of a line. `acc` is the word being read, reversed; `quoted` says that it is a quoted
message, which runs to the closing quote and keeps its opening quote as a mark.
DESIGN CHOICE (log 20): a message with no closing quote runs to the end of the line, its spaces and
any `;` included; a quote opens a message only at the start of a word, and inside a word it is a
byte like any other; what follows a closing quote starts a new word. -/
def lineWords : List Byte → List Byte → Bool → List (List Byte)
  | [], acc, _ => pushWord acc []
  | c :: cs, acc, true =>
    if c = quote then acc.reverse :: lineWords cs [] false else lineWords cs (c :: acc) true
  | c :: cs, acc, false =>
    if c = semicolon then pushWord acc []
    else if c = space then pushWord acc (lineWords cs [] false)
    else if c = quote ∧ acc = [] then lineWords cs [quote] true
    else lineWords cs (c :: acc) false

/-- What is left of `v` after `pre`. -/
def afterKey : List Byte → List Byte → Option (List Byte)
  | [], v => some v
  | _ :: _, [] => none
  | p :: ps, c :: cs => if p = c then afterKey ps cs else none

/-- A natural number in decimal digits. -/
def natValue (v : List Byte) : Option Nat :=
  if v ≠ [] ∧ v.all isDigit = true then some (digitsValue v) else none

/-- An integer in decimal digits with an optional sign, `+` or `-`. DESIGN CHOICE (log 20). -/
def intValue : List Byte → Option Int
  | [] => none
  | c :: cs =>
    if c = dash then (natValue cs).map fun n => -(n : Int)
    else if c = plus then (natValue cs).map fun n => (n : Int)
    else (natValue (c :: cs)).map fun n => (n : Int)

/-- The direction operand: `0`/`1` or `DOWNWARD`/`UPWARD` (30_encoding R88). DESIGN CHOICE (log 20):
a line with any other word there is unreadable. -/
def directionOperand (v : List Byte) : Option Direction :=
  if v = ascii ['0'] ∨ v = ascii ['D', 'O', 'W', 'N', 'W', 'A', 'R', 'D'] then some .downward
  else if v = ascii ['1'] ∨ v = ascii ['U', 'P', 'W', 'A', 'R', 'D'] then some .upward
  else none

/-- A mnemonic of the opcode map that takes no operand (30_encoding R74, R88). -/
def plainMnemonic (m : List Byte) : Option Instr :=
  if m = ascii ['N', 'O', 'P'] then some .nop
  else if m = tokenDcStop then some .dcStop
  else if m = tokenDcStart then some .dcStart
  else if m = tokenOpenChip then some .openChip
  else if m = tokenCloseChip then some .closeChip
  else none

/-- A mnemonic of the opcode map with its operand (30_encoding R74, R88). DESIGN CHOICE: a mnemonic
that takes no operand reads none here, and a decimal is one of R85's grammar (log 20); the value
beside DC_MOTOR_DIR is 0 (log 25). -/
def operandMnemonic (m v : List Byte) : Option HostCommand :=
  if m = tokenDcMotorDir then
    (directionOperand v).map fun d => .port (encode (.dcMotorDir d)) 0
  else if m = tokenDcMotorSpeed then
    (decimalValue v).map fun q => .port (encode .dcMotorSpeed) q
  else if m = ascii ['S', 'E', 'T', '_', 'V', 'O', 'L', 'T', 'A', 'G', 'E'] then
    (decimalValue v).map fun q => .port (encode .setVoltage) q
  else none

/-- The command part of a line: nothing is NOP, a quoted message is a text message, else a mnemonic
with its operand (30_encoding R88). DESIGN CHOICE: DC_MOTOR_DIR, DC_MOTOR_SPEED and SET_VOLTAGE
without an operand, an operand that does not belong to its mnemonic, a word that is no mnemonic and
anything after the command make the line unreadable (log 20); the value beside a command that reads
none, listed or NOP by absence, is 0 (log 25). -/
def listedCommand : List (List Byte) → Option HostCommand
  | [] => some (.port (encode .nop) 0)
  | [m] =>
    match m with
    | [] => none
    | c :: cs =>
      if c = quote then some (.text cs)
      else (plainMnemonic (c :: cs)).map fun i => .port (encode i) 0
  | [m, v] => operandMnemonic m v
  | _ => none

/-- The value of a word of the form `<key><value>`. -/
def keyed (key : List Char) (w : List Byte) : Option (List Byte) := afterKey (ascii key) w

/-- The line from `t=` on; `tc` is the command time where the line gave one (30_encoding R88).
DESIGN CHOICE (log 20): a line that departs from R88's form is unreadable. -/
def listedFrom (tc : Option Nat) : List (List Byte) → Option TickInput
  | wt :: wi :: rest => do
    let t ← (keyed ['t', '='] wt).bind natValue
    let raw ← (keyed ['i', '='] wi).bind intValue
    let cmd ← listedCommand rest
    some ⟨cmd, tc.getD t, raw, t⟩
  | _ => none

/-- One line of a listing, already in words (30_encoding R88). -/
def listedTick : List (List Byte) → Option TickInput
  | [] => none
  | kw :: rest =>
    if kw ≠ ascii ['T', 'I', 'C', 'K'] then none
    else
      match rest with
      | [] => none
      | w :: ws =>
        match keyed ['t', 'c', '='] w with
        | some v => (natValue v).bind fun tc => listedFrom (some tc) ws
        | none => listedFrom none (w :: ws)

/-- One line of a listing (30_encoding R88). -/
def parseTick (line : List Byte) : Option TickInput := listedTick (lineWords line [] false)

/-- The lines of a text. DESIGN CHOICE (log 20): a newline ends a line inside a quoted message
too. -/
def textLines : List Byte → List Byte → List (List Byte)
  | [], acc => [acc.reverse]
  | c :: cs, acc => if c = newline then acc.reverse :: textLines cs [] else textLines cs (c :: acc)

/-- The tick inputs of lines already in words, blank lines skipped; `none` where one line cannot be
read. DESIGN CHOICE (log 20). -/
def listedRun : List (List (List Byte)) → Option (List TickInput)
  | [] => some []
  | ws :: rest =>
    if ws = [] then listedRun rest
    else do
      let i ← listedTick ws
      let is ← listedRun rest
      some (i :: is)

/-- A program listing as the host's sequence of tick inputs (30_encoding R88, 10_state R33). -/
def parseListing (text : List Byte) : Option (List TickInput) :=
  listedRun ((textLines text []).map fun l => lineWords l [] false)

end Sys2Proof.Machine
end

