-- ==== Sys2Proof/Machine/Observe.lean ====
section
/-! DEFINITION. What an observer sees of the machine: the host's view (43_signal R183,
70_reset_and_hazards R240) and the safety conditions' labels (60_exceptions R201). Nothing here is
recorded by the block (R202); no step reads it. -/

namespace Sys2Proof.Machine

/-- What the host observes: the three output registers and the emission events (10_state R36,
43_signal R183). -/
structure HostView where
  outputs : Outputs
  emissions : List Outputs
deriving DecidableEq, Repr

/-- The host's view of a state. -/
def State.hostView (s : State) : HostView := ⟨s.outputs, s.emissions⟩

/-- The labels of 60_exceptions R201. -/
inductive SafetyCondition where
  /-- SC_OVERCURRENT -/
  | overcurrent
  /-- SC_OUT_OF_RANGE -/
  | outOfRange
  /-- SC_INVALID_TRANSITION -/
  | invalidTransition
  /-- SC_UNRECOGNIZED -/
  | unrecognized
deriving DecidableEq, Repr

/-- SC_UNRECOGNIZED: a reserved command word, or a message that decodes to no command
(30_encoding R76, R83, R84, R85). -/
def unrecognized : HostCommand → Bool
  | .port w _ => isReserved w
  | .text m => decide ((textDecode m).1 = 0x00)

/-- SC_OUT_OF_RANGE: an applied SET_VOLTAGE or SET_SPEED whose value the rule clamps
(41_commands R124, R125). DESIGN CHOICE (log 19): a speed counts by its own range
[0, NOMINAL_SPEED]. -/
def outOfRange (c : Config) (st : OperatingState) (val : ℚ) : Instr → Bool
  | .setVoltage => st.settable && decide (clampVoltage val ≠ val)
  | .dcMotorSpeed => decide (clamp 0 c.nominalSpeed val ≠ val)
  | .nop | .dcStop | .dcStart | .dcMotorDir _ | .openChip | .closeChip => false

/-- SC_INVALID_TRANSITION: a gated command outside its states (41_commands R129). -/
def invalidTransition (st : OperatingState) : Instr → Bool
  | .dcStart | .dcMotorDir _ | .setVoltage => !st.settable
  | .nop | .dcStop | .dcMotorSpeed | .openChip | .closeChip => false

/-- SC_OVERCURRENT: the interlock fires in the loop that runs from `s` (42_tick R153). -/
def overcurrent (s : State) : Bool :=
  interlockFires (sampleStep s) (filterAverage (sampleStep s))

/-- The conditions detected on the command of input `i` in state `s`, before the command applies. -/
def commandConditions (s : State) (i : TickInput) : List SafetyCondition :=
  (if unrecognized i.cmd then [.unrecognized] else [])
    ++ (if invalidTransition s.state (decode i.cmd.resolve.1) then [.invalidTransition] else [])
    ++ (if outOfRange s.cfg s.state i.cmd.resolve.2 (decode i.cmd.resolve.1) then [.outOfRange]
        else [])

/-- The conditions detected by the loop that runs from `s`. -/
def loopConditions (s : State) : List SafetyCondition :=
  if overcurrent s then [.overcurrent] else []

end Sys2Proof.Machine
end

