-- ==== Sys2Proof/Safety.lean ====
section
/-! DEFINITION. What a safe state is: the invariants of 10_state R37, with the types of R20 and the
clock relation of 70_reset_and_hazards R241 they rest on. -/

namespace Sys2Proof.Machine

/-- The disabled motor gets the disabled pattern; in general the outputs are what the fields map to
(10_state R37, 43_signal R184). -/
def OutputsMatch (s : State) : Prop := s.outputs = s.signal

/-- IDLE exactly when disabled (10_state R37). -/
def IdleIffDisabled (s : State) : Prop := s.state = .idle ↔ s.enabled = false

/-- The pending state is one a phase can end in whenever the motor is in any other state than IDLE
(10_state R25, R37). -/
def PendingLegal (s : State) : Prop :=
  s.pendingState ≠ .starting ∧ (s.state ≠ .idle → s.pendingState ≠ .idle)

/-- `voltage` in [0, 12] (10_state R27, R37). -/
def VoltageInRange (s : State) : Prop := 0 ≤ s.voltage ∧ s.voltage ≤ vMax

/-- Every slot holds 0 or a sample the host may supply (40_filter R101). -/
def SlotsInRange (s : State) : Prop :=
  ∀ v ∈ s.buf, v = 0 ∨ (s.cfg.rawMin ≤ v ∧ v ≤ s.cfg.rawMax)

/-- The invariant of the block: it holds at reset and every tick keeps it. -/
structure BlockInv (s : State) : Prop where
  config : s.cfg.wf = true
  filter : Memory.wf s = true
  slots : SlotsInRange s
  voltage : VoltageInRange s
  idle : IdleIffDisabled s
  pending : PendingLegal s
  outputs : OutputsMatch s
  clock : s.phaseStartTime ≤ s.ports.tl

/-- The next tick's input meets the host's duties (70_reset_and_hazards R241). -/
def HostDutiesMet (s : State) : Prop :=
  clockDuty s (nextInput s) = true ∧ sampleDuty s (nextInput s) = true

/-- A list of supplied inputs meets the host's duties from clock value `now` on
(70_reset_and_hazards R241). -/
def DutiesAlong (c : Config) (now : Nat) : List TickInput → Prop
  | [] => True
  | i :: is =>
    (now ≤ i.tc ∧ i.tc ≤ i.tl) ∧ (c.rawMin ≤ i.raw ∧ i.raw ≤ c.rawMax) ∧ DutiesAlong c i.tl is

/-- The command a tick input carries, as an instruction. -/
def TickInput.instr (i : TickInput) : Instr := decode i.cmd.resolve.1

/-- `k` ticks from `s`. -/
def runTicks (k : Nat) (s : State) : Host.Outcome State Fault Refusal :=
  Host.Core.run Sys2Proof.core k s

/-- The host's view of an outcome: what it sees of a next state, and nothing of a stop. -/
def viewOf : Host.Outcome State Fault Refusal → Option HostView
  | .next s => some s.hostView
  | .fault _ => none
  | .refused _ => none

end Sys2Proof.Machine
end

