-- ==== Sys2Proof/Certificates/Slice0/Obligations.lean ====
section
/-! DEFINITION. The statements for the provers, from the spec's numbered rules. `Memory.wf`, `BlockInv`,
`HostDutiesMet` and `DutiesAlong` are the only premises on a state; each has its witness in
Tests/Slice0.lean. -/

open Sys2Proof Sys2Proof.Machine

/-! ## Encoding -/

/-- 95_test_vectors section 2.1: words written out bit by bit from the opcode map. -/
def Obligations.WordsDecodeAsTabulated : Prop :=
  decode 0b00000000 = .nop ∧ decode 0b00000001 = .dcStop ∧ decode 0b00000010 = .dcStart ∧
    decode 0b00000011 = .dcMotorDir .downward ∧ decode 0b00010011 = .dcMotorDir .upward ∧
    decode 0b00000100 = .dcMotorSpeed ∧ decode 0b00000101 = .openChip ∧
    decode 0b00000110 = .closeChip ∧ decode 0b00000111 = .setVoltage ∧
    decode 0b00001000 = .nop ∧ decode 0b00001111 = .nop ∧ decode 0b00010001 = .nop ∧
    decode 0b00010111 = .nop ∧ decode 0b00100011 = .nop ∧ decode 0b10000011 = .nop ∧
    decode 0b11100001 = .nop ∧ decode 0b11111111 = .nop

/-- R76: a word is reserved exactly where no row of the opcode map matches it, the three ways of
being so are the rule's, and a reserved word writes no state and emits nothing. -/
def Obligations.ReservedWordsAreNop : Prop :=
  ∀ w : CommandWord,
    ((∀ i, w &&& rowMask i ≠ rowMatch i) ↔
      (8 ≤ (w &&& 0x0F).toNat ∨ w &&& 0xE0 ≠ 0 ∨ (w &&& 0x10 ≠ 0 ∧ w &&& 0x0F ≠ 0x03))) ∧
    ((∀ i, w &&& rowMask i ≠ rowMatch i) →
      decode w = .nop ∧ ∀ s, exec (decode w) s = .next s)

/-- R74, R75, R76: decode and encode agree. A word decodes to an instruction exactly where it is
that instruction's word, or is reserved and the instruction is NOP. -/
def Obligations.DecodeAndEncodeAgree : Prop :=
  (∀ i, decode (encode i) = i) ∧
    ∀ (w : CommandWord) (i : Instr),
      decode w = i ↔ w = encode i ∨ (i = .nop ∧ isReserved w = true)

/-- R84, R86, R87: the text decoder, case by case, on every message; it never yields SET_VOLTAGE or
a reserved word. -/
def Obligations.TextDecoderFollowsItsTable : Prop :=
  [tokenDcStop, tokenDcStart, tokenDcMotorDir, tokenDcMotorSpeed, tokenOpenChip,
      tokenCloseChip] =
    ["DC_STOP", "DC_START", "DC_MOTOR_DIR", "DC_MOTOR_SPEED", "OPEN_CHIP", "CLOSE_CHIP"].map
      (fun name => ascii name.toList) ∧
    dash = 0x2D ∧
    (∀ m : List Byte, dash ∉ m → textDecode m = (0x00, 0)) ∧
    (∀ token value : List Byte, dash ∉ token →
      (token = tokenDcStop → textDecode (token ++ dash :: value) = (0x01, 0)) ∧
      (token = tokenDcStart → textDecode (token ++ dash :: value) = (0x02, 0)) ∧
      (token = tokenDcMotorDir →
        (value = [0x30] → textDecode (token ++ dash :: value) = (0x03, 0)) ∧
        (value = [0x31] → textDecode (token ++ dash :: value) = (0x13, 0)) ∧
        (value ≠ [0x30] → value ≠ [0x31] → textDecode (token ++ dash :: value) = (0x00, 0))) ∧
      (token = tokenDcMotorSpeed →
        (∀ q, decimalValue value = some q → textDecode (token ++ dash :: value) = (0x04, q)) ∧
        (decimalValue value = none → textDecode (token ++ dash :: value) = (0x00, 0))) ∧
      (token = tokenOpenChip → textDecode (token ++ dash :: value) = (0x05, 0)) ∧
      (token = tokenCloseChip → textDecode (token ++ dash :: value) = (0x06, 0)) ∧
      (token ∉ [tokenDcStop, tokenDcStart, tokenDcMotorDir, tokenDcMotorSpeed, tokenOpenChip,
          tokenCloseChip] → textDecode (token ++ dash :: value) = (0x00, 0))) ∧
    ∀ m : List Byte, (textDecode m).1 ≠ 0x07 ∧ isReserved (textDecode m).1 = false

/-- R85: a speed value matches the decimal grammar exactly where it parses, and it is read as the
exact rational it denotes; a value that does not match makes the message a NOP. -/
def Obligations.SpeedValueGrammar : Prop :=
  (∀ (v : List Byte) (q : ℚ), decimalValue v = some q ↔
    ∃ sign ip fp : List Byte,
      (sign = [] ∨ sign = [plus] ∨ sign = [dash]) ∧
      (∀ c ∈ ip ++ fp, 0x30 ≤ c.toNat ∧ c.toNat ≤ 0x39) ∧
      ((ip ≠ [] ∧ ((fp = [] ∧ v = sign ++ ip) ∨ v = sign ++ ip ++ point :: fp)) ∨
        (ip = [] ∧ fp ≠ [] ∧ v = sign ++ point :: fp)) ∧
      q = (if sign = [dash] then -1 else 1) * ((digitsValue (ip ++ fp) : ℚ) / 10 ^ fp.length)) ∧
    digitsValue [] = 0 ∧
    (∀ (ds : List Byte) (c : Byte),
      digitsValue (ds ++ [c]) = 10 * digitsValue ds + (c.toNat - 0x30)) ∧
    ∀ v : List Byte, textDecode (tokenDcMotorSpeed ++ dash :: v) =
      match decimalValue v with
      | some q => (0x04, q)
      | none => (0x00, 0)

/-- R88: listing lines of the spec's programs P1, P4 and P5, a line with `tc=`, and one whose operand
its mnemonic does not take. The model's choices: the spacing, the comment, the sign of a raw sample
and that the last line is unreadable (log 20); the value 0 beside NOP and DC_MOTOR_DIR (log 25). -/
def Obligations.ListingLinesRead : Prop :=
  parseTick (ascii "TICK t=0   i=0   DC_MOTOR_SPEED 50     ; w=0x04 val=50".toList) =
      some ⟨.port 0x04 50, 0, 0, 0⟩ ∧
    parseTick (ascii "TICK t=120 i=900                       ; w=0x00".toList) =
      some ⟨.port 0x00 0, 120, 900, 120⟩ ∧
    parseTick (ascii "TICK t=60  i=0    SET_VOLTAGE 1".toList) = some ⟨.port 0x07 1, 60, 0, 60⟩ ∧
    parseTick (ascii "TICK tc=10 t=111 i=-3 DC_MOTOR_DIR UPWARD".toList) =
      some ⟨.port 0x13 0, 10, -3, 111⟩ ∧
    parseTick (ascii "TICK t=10  i=0   \"DC_START-\"           ; -> w=0x02".toList) =
      some ⟨.text (tokenDcStart ++ [dash]), 10, 0, 10⟩ ∧
    parseTick (ascii "TICK t=10 i=0 OPEN_CHIP 1".toList) = none

/-! ## Commands -/

/-- R120: NOP, its word 0x00 and every reserved word, changes nothing, and the tick's loop still
runs. -/
def Obligations.NopChangesNothing : Prop :=
  encode .nop = 0x00 ∧ (∀ w, w = 0x00 ∨ isReserved w = true → decode w = .nop) ∧
    (∀ m : List Byte, (textDecode m).1 = 0x00 → decode (HostCommand.text m).resolve.1 = .nop) ∧
    (∀ s, exec .nop s = .next s) ∧
    ∀ s l, fetch s = .next l → decode l.ports.w = .nop → step s = .next (loop l)

/-- R121: DC_START enters STARTING from IDLE and USER_CONTROL and is ignored elsewhere. -/
def Obligations.DcStartEntersStarting : Prop :=
  encode .dcStart = 0x02 ∧
    ∀ s : State,
      (s.state = .idle ∨ s.state = .userControl →
        exec .dcStart s = .next
          { s with
            enabled := true, state := .starting, pendingState := .userControl,
            phaseStartTime := s.ports.tc }) ∧
      (s.state ≠ .idle → s.state ≠ .userControl → exec .dcStart s = .next s)

/-- R122: DC_STOP disables the motor in every state and emits the disabled pattern at once; doing it
again leaves the same state and emits once more. -/
def Obligations.DcStopDisablesAndEmits : Prop :=
  encode .dcStop = 0x01 ∧
    ∀ s : State, ∃ t : State,
      t = { s with
            enabled := false, voltage := 0, state := .idle, outDir := 0, outBrake := 1,
            outPwm := 0, emissions := s.emissions ++ [⟨0, 1, 0⟩] } ∧
      exec .dcStop s = .next t ∧
      exec .dcStop t = .next { t with emissions := t.emissions ++ [⟨0, 1, 0⟩] }

/-- R123: DC_MOTOR_DIR sets the direction in IDLE and USER_CONTROL and is ignored elsewhere. -/
def Obligations.DcMotorDirSetsDirection : Prop :=
  encode (.dcMotorDir .downward) = 0x03 ∧ encode (.dcMotorDir .upward) = 0x13 ∧
    ∀ (d : Direction) (s : State),
      (s.state = .idle ∨ s.state = .userControl →
        exec (.dcMotorDir d) s = .next { s with direction := d }) ∧
      (s.state ≠ .idle → s.state ≠ .userControl → exec (.dcMotorDir d) s = .next s)

/-- R124: SET_VOLTAGE stores the clamped value in IDLE and USER_CONTROL and is ignored elsewhere;
in IDLE with the average above MAX_CURRENT the loop sets the voltage back to 0. -/
def Obligations.SetVoltageStoresClamped : Prop :=
  encode .setVoltage = 0x07 ∧
    (∀ s : State,
      (s.state = .idle ∨ s.state = .userControl →
        (s.ports.val < 0 → exec .setVoltage s = .next { s with voltage := 0 }) ∧
        (0 ≤ s.ports.val → s.ports.val ≤ 12 →
          exec .setVoltage s = .next { s with voltage := s.ports.val }) ∧
        (12 < s.ports.val → exec .setVoltage s = .next { s with voltage := 12 })) ∧
      (s.state ≠ .idle → s.state ≠ .userControl → exec .setVoltage s = .next s)) ∧
    ∀ s t : State, s.state = .idle → filterAverage s > s.cfg.maxCurrent →
      exec .setVoltage s = .next t → (loop t).voltage = 0

/-- R126, with DC_MOTOR_SPEED (R125) that stores it in every state: the exact rational conversion
with both clamps, its value below 0 and above NOMINAL_SPEED, and the rule's examples. -/
def Obligations.DcMotorSpeedStoresConvertedSpeed : Prop :=
  encode .dcMotorSpeed = 0x04 ∧
    (∀ s : State, exec .dcMotorSpeed s = .next
      { s with
        voltage := min 12 (max 0 (s.cfg.nominalVoltage *
          min s.cfg.nominalSpeed (max 0 s.ports.val) / s.cfg.nominalSpeed)) }) ∧
    (∀ (c : Config) (x : ℚ), c.wf = true →
      (x ≤ 0 → speedToVoltage c x = 0) ∧
      (0 ≤ c.nominalVoltage → c.nominalSpeed ≤ x →
        speedToVoltage c x = min 12 c.nominalVoltage)) ∧
    (∀ (c : Config), c.nominalSpeed = 100 →
      (c.nominalVoltage = 12 → speedToVoltage c 50 = 6 ∧ speedToVoltage c 150 = 12 ∧
        speedToVoltage c (-3) = 0 ∧ speedToVoltage c (11 / 2) = 33 / 50) ∧
      (c.nominalVoltage = 24 → speedToVoltage c 75 = 12))

/-- R127: OPEN_CHIP enters STARTING in every state, with its direction, voltage and pending
state; nothing else changes. -/
def Obligations.OpenChipEntersStarting : Prop :=
  encode .openChip = 0x05 ∧
    ∀ s : State, exec .openChip s = .next
      { s with
        state := .starting, pendingState := .openChip, direction := .downward,
        voltage := speedToVoltage s.cfg s.cfg.downSpeed, enabled := true,
        phaseStartTime := s.ports.tc }

/-- R128: CLOSE_CHIP, as OPEN_CHIP with its own pending state, direction and fixed speed. -/
def Obligations.CloseChipEntersStarting : Prop :=
  encode .closeChip = 0x06 ∧
    ∀ s : State, exec .closeChip s = .next
      { s with
        state := .starting, pendingState := .closeChip, direction := .upward,
        voltage := speedToVoltage s.cfg s.cfg.upSpeed, enabled := true,
        phaseStartTime := s.ports.tc }

/-- R129: the gate table. Every command completes in every state; the ignored ones change nothing,
the applied ones write, and DC_STOP alone emits. -/
def Obligations.GateTableHolds : Prop :=
  ∀ (i : Instr) (s : State), ∃ t, exec i s = .next t ∧
    (i = .nop → t = s) ∧
    (s.state ∉ [.idle, .userControl] →
      (i = .dcStart ∨ (∃ d, i = .dcMotorDir d) ∨ i = .setVoltage) → t = s) ∧
    (s.state ∈ [.idle, .userControl] →
      (i = .dcStart → t.state = .starting ∧ t.enabled = true ∧ t.pendingState = .userControl ∧
        t.phaseStartTime = s.ports.tc) ∧
      (∀ d, i = .dcMotorDir d → t.direction = d) ∧
      (i = .setVoltage → t.voltage = clampVoltage s.ports.val)) ∧
    (i = .dcStop → t.state = .idle ∧ t.enabled = false ∧ t.voltage = 0) ∧
    (i = .dcMotorSpeed → t.voltage = speedToVoltage s.cfg s.ports.val) ∧
    (i = .openChip → t.state = .starting ∧ t.pendingState = .openChip ∧
      t.direction = .downward ∧ t.voltage = speedToVoltage s.cfg s.cfg.downSpeed ∧
      t.enabled = true ∧ t.phaseStartTime = s.ports.tc) ∧
    (i = .closeChip → t.state = .starting ∧ t.pendingState = .closeChip ∧
      t.direction = .upward ∧ t.voltage = speedToVoltage s.cfg s.cfg.upSpeed ∧
      t.enabled = true ∧ t.phaseStartTime = s.ports.tc) ∧
    t.emissions = s.emissions ++ if i = .dcStop then [⟨0, 1, 0⟩] else []

/-- R21, R51: no command reaches the filter, the constants, or the host's side: every slot reads as
before. -/
def Obligations.CommandsLeaveTheFilterAlone : Prop :=
  ∀ (i : Instr) (s t : State), exec i s = .next t →
    (∀ k, readSlot t k = readSlot s k) ∧ t.cursor = s.cursor ∧ t.cfg = s.cfg ∧
      t.ports = s.ports ∧ t.supplied = s.supplied ∧ t.ticks = s.ticks

/-- R21: the frame of every command, field by field: a field changes only under a command the
rule's table names for it. -/
def Obligations.CommandsWriteTheirFieldsOnly : Prop :=
  ∀ (i : Instr) (s t : State), exec i s = .next t →
    (i ∉ [.dcStart, .dcStop, .openChip, .closeChip] →
      t.enabled = s.enabled ∧ t.state = s.state) ∧
    (i ∉ [.dcStart, .openChip, .closeChip] →
      t.pendingState = s.pendingState ∧ t.phaseStartTime = s.phaseStartTime) ∧
    (i ∉ [.dcMotorDir .downward, .dcMotorDir .upward, .openChip, .closeChip] →
      t.direction = s.direction) ∧
    (i ∉ [.dcStop, .setVoltage, .dcMotorSpeed, .openChip, .closeChip] →
      t.voltage = s.voltage) ∧
    (i ≠ .dcStop → t.outDir = s.outDir ∧ t.outBrake = s.outBrake ∧ t.outPwm = s.outPwm ∧
      t.emissions = s.emissions)

/-- R72: `d` names the direction, and `val` reaches the state through DC_MOTOR_SPEED and
SET_VOLTAGE only: any other command does the same whatever stands on the value port. -/
def Obligations.ValueReadByTwoCommandsOnly : Prop :=
  (∀ d : BitVec 1, decode (0#3 ++ d ++ 0x3#4) =
    .dcMotorDir (if d = 0 then .downward else .upward)) ∧
    (∀ (s : State), exec .dcMotorSpeed s =
      .next { s with voltage := speedToVoltage s.cfg s.ports.val }) ∧
    (∀ (s : State), s.state = .userControl →
      exec .setVoltage s = .next { s with voltage := clampVoltage s.ports.val }) ∧
    ∀ (i : Instr) (s : State) (v : ℚ), i ≠ .dcMotorSpeed → i ≠ .setVoltage →
      ∃ t, exec i s = .next t ∧
        exec i { s with ports := { s.ports with val := v } } =
          .next { t with ports := { t.ports with val := v } }

/-! ## Filter -/

/-- R100: FilterSample writes the slot at the cursor, leaves every other slot as it was, and moves
the cursor on, modulo N; nothing else changes. -/
def Obligations.FilterSampleWritesOneSlot : Prop :=
  ∀ (s : State) (raw : Int), Memory.wf s = true →
    readSlot (filterSample s raw) s.cursor = some raw ∧
      (∀ k, k ≠ s.cursor → readSlot (filterSample s raw) k = readSlot s k) ∧
      (filterSample s raw).cursor = (s.cursor + 1) % s.cfg.n ∧
      (s.cfg.n = 1 → (filterSample s raw).cursor = 0) ∧
      filterSample s raw =
        { s with buf := (filterSample s raw).buf, cursor := (filterSample s raw).cursor }

/-- R102: FilterReset makes every slot 0 and keeps the cursor and all else; it is idempotent and
the average is 0 after it. -/
def Obligations.FilterResetZeroesEverySlot : Prop :=
  ∀ s : State,
    (∀ k, k < s.cfg.n → readSlot (filterReset s) k = some 0) ∧
      (∀ k, s.cfg.n ≤ k → readSlot (filterReset s) k = none) ∧
      (filterReset s).cursor = s.cursor ∧
      filterReset s = { s with buf := (filterReset s).buf } ∧
      filterReset (filterReset s) = filterReset s ∧ filterAverage (filterReset s) = 0

/-- R103: FilterAverage is the exact sum of the N slots over N rounded toward zero; it depends
neither on the cursor nor on the order of the slots. -/
def Obligations.FilterAverageIsTheMeanOfAllSlots : Prop :=
  ∀ s : State, Memory.wf s = true →
    (filterAverage s =
      tdivNat (((List.range s.cfg.n).map fun k => (readSlot s k).getD 0).sum) s.cfg.n) ∧
    ∀ (l : List Int) (c : Nat), l.Perm s.buf →
      filterAverage { s with buf := l, cursor := c } = filterAverage s

/-- R104: the quotient rounded toward zero, and the rule's examples. -/
def Obligations.QuotientRoundsTowardZero : Prop :=
  (∀ (a : Int) (n : Nat), 1 ≤ n →
    tdivNat a n = a.sign * ((a.natAbs / n : Nat) : Int) ∧
      (0 ≤ a → (tdivNat a n : ℚ) = ⌊(a : ℚ) / n⌋)) ∧
    tdivNat 3 4 = 0 ∧ tdivNat (-3) 4 = 0 ∧ tdivNat (-5) 4 = -1 ∧ tdivNat 4804 4 = 1201

/-- R105: the three comparators are strict: a current equal to a threshold does not trip one. -/
def Obligations.ComparatorsAreStrict : Prop :=
  ∀ (c : Config) (current : Int),
    (overMax c current = true ↔ c.maxCurrent < current) ∧
      (overDown c current = true ↔ c.downThreshold < current) ∧
      (overUp c current = true ↔ c.upThreshold < current) ∧
      overMax c c.maxCurrent = false ∧ overDown c c.downThreshold = false ∧
      overUp c c.upThreshold = false ∧
      ∀ s : State, s.cfg = c →
        (interlockFires s current = true ↔ s.state ≠ .starting ∧ c.maxCurrent < current)

/-- R101, R103: the average lies between the least and the greatest slot. -/
def Obligations.AverageLiesAmongTheSlots : Prop :=
  ∀ (s : State) (lo hi : Int), Memory.wf s = true → (∀ v ∈ s.buf, lo ≤ v ∧ v ≤ hi) →
    lo ≤ filterAverage s ∧ filterAverage s ≤ hi

/-- R107, the moving-average law: from a zeroed buffer, after any samples, the average is over the
last N of them (over all, padded with zeros, while there are fewer); with every sample equal, when
it first exceeds a threshold. A FilterReset and the block's reset both leave a zeroed buffer. -/
def Obligations.MovingAverageLaw : Prop :=
  (∀ s : State, Memory.wf s = true → (∀ k, k < s.cfg.n → readSlot s k = some 0) →
    (∀ xs : List Int,
      (xs.length < s.cfg.n →
        filterAverage (xs.foldl filterSample s) = tdivNat xs.sum s.cfg.n) ∧
      (s.cfg.n ≤ xs.length →
        filterAverage (xs.foldl filterSample s) =
          tdivNat (xs.drop (xs.length - s.cfg.n)).sum s.cfg.n)) ∧
    ∀ (x : Int) (k : Nat), 0 ≤ x →
      filterAverage ((List.replicate k x).foldl filterSample s) =
          (min k s.cfg.n : Nat) * x / s.cfg.n ∧
        ∀ T : Int, 0 ≤ T →
          (T < filterAverage ((List.replicate k x).foldl filterSample s) →
            ∃ j, j ≤ k ∧ j ≤ s.cfg.n ∧ T < (j : Int) * x / s.cfg.n) ∧
          (∀ j, j ≤ k → j ≤ s.cfg.n → T < (j : Int) * x / s.cfg.n →
            T < filterAverage ((List.replicate k x).foldl filterSample s)) ∧
          (x ≤ T → filterAverage ((List.replicate k x).foldl filterSample s) ≤ T)) ∧
    (∀ s : State, Memory.wf s = true → Memory.wf (filterReset s) = true ∧
      ∀ k, k < (filterReset s).cfg.n → readSlot (filterReset s) k = some 0) ∧
    ∀ c : Config, c.wf = true → Memory.wf (State.resetWith c) = true ∧
      ∀ k, k < c.n → readSlot (State.resetWith c) k = some 0

/-! ## The per-tick step -/

/-- R151: the loop samples in USER_CONTROL, OPEN_CHIP and CLOSE_CHIP only, and the cursor moves only
there. -/
def Obligations.SamplingFollowsTheState : Prop :=
  ∀ s : State,
    (s.state ≠ .starting → s.state ≠ .idle → sampleStep s = filterSample s s.ports.raw) ∧
      (s.state = .starting ∨ s.state = .idle → sampleStep s = s) ∧
      (loop s).cursor = (sampleStep s).cursor

/-- R153: above MAX_CURRENT the interlock stops the motor in every state but STARTING, whatever
the phase's threshold; it writes the disabled fields and outputs, emits once, and keeps the filter
and every other field. In STARTING, or at MAX_CURRENT exactly, it does not fire. -/
def Obligations.InterlockStopsTheMotor : Prop :=
  ∀ s : State,
    (s.state ≠ .starting → filterAverage (sampleStep s) > s.cfg.maxCurrent →
      loop s =
        { sampleStep s with
          enabled := false, voltage := 0, state := .idle, outDir := 0, outBrake := 1,
          outPwm := 0, emissions := s.emissions ++ [⟨0, 1, 0⟩] }) ∧
    (s.state = .starting → ∀ current, interlockFires s current = false) ∧
    interlockFires s s.cfg.maxCurrent = false

/-- R154: an IDLE tick without an interlock changes nothing and emits nothing. -/
def Obligations.IdleBranchDoesNothing : Prop :=
  ∀ s : State, s.state = .idle → filterAverage s ≤ s.cfg.maxCurrent → loop s = s

/-- R155: a USER_CONTROL tick without an interlock emits the commanded values. -/
def Obligations.UserControlBranchEmits : Prop :=
  ∀ s : State, s.state = .userControl → filterAverage (sampleStep s) ≤ s.cfg.maxCurrent →
    loop s = emit (sampleStep s)

/-- R156: STARTING ends at the first loop time strictly more than STARTING_TIME after its start; the
exit zeroes the filter and enters the pending state; every STARTING tick emits; an entry tick with
one clock reading does not end it; the average plays no part. -/
def Obligations.StartingBranchIsTimed : Prop :=
  ∀ s : State, s.state = .starting →
    (s.ports.tl - s.phaseStartTime > s.cfg.startingTime →
      loop s = emit { s with buf := List.replicate s.cfg.n 0, state := s.pendingState }) ∧
    (s.ports.tl - s.phaseStartTime ≤ s.cfg.startingTime → loop s = emit s) ∧
    (s.ports.tl = s.phaseStartTime → (loop s).state = .starting)

/-- R157: OPEN_CHIP stops, with the filter zeroed, above DOWN_THRESHOLD and at most MAX_CURRENT;
it emits in every case. -/
def Obligations.OpenChipBranchStopsWhenSeated : Prop :=
  ∀ s : State, s.state = .openChip → filterAverage (sampleStep s) ≤ s.cfg.maxCurrent →
    (filterAverage (sampleStep s) > s.cfg.downThreshold →
      loop s =
        { s with
          voltage := 0, enabled := false, state := .idle, buf := List.replicate s.cfg.n 0,
          cursor := (s.cursor + 1) % s.cfg.n, outDir := 0, outBrake := 1, outPwm := 0,
          emissions := s.emissions ++ [⟨0, 1, 0⟩] }) ∧
    (filterAverage (sampleStep s) ≤ s.cfg.downThreshold → loop s = emit (sampleStep s))

/-- R158: CLOSE_CHIP, the same with UP_THRESHOLD. -/
def Obligations.CloseChipBranchStopsAtTorque : Prop :=
  ∀ s : State, s.state = .closeChip → filterAverage (sampleStep s) ≤ s.cfg.maxCurrent →
    (filterAverage (sampleStep s) > s.cfg.upThreshold →
      loop s =
        { s with
          voltage := 0, enabled := false, state := .idle, buf := List.replicate s.cfg.n 0,
          cursor := (s.cursor + 1) % s.cfg.n, outDir := 0, outBrake := 1, outPwm := 0,
          emissions := s.emissions ++ [⟨0, 1, 0⟩] }) ∧
    (filterAverage (sampleStep s) ≤ s.cfg.upThreshold → loop s = emit (sampleStep s))

/-- R21: the frame of the loop: it never writes the pending state, the direction, the phase start,
the constants or the host's side; outside a stop it keeps `enabled` and `voltage`. -/
def Obligations.LoopWritesItsFieldsOnly : Prop :=
  ∀ s : State,
    (loop s).pendingState = s.pendingState ∧ (loop s).direction = s.direction ∧
      (loop s).phaseStartTime = s.phaseStartTime ∧ (loop s).cfg = s.cfg ∧
      (loop s).ports = s.ports ∧ (loop s).supplied = s.supplied ∧ (loop s).ticks = s.ticks ∧
      ((loop s).state ≠ .idle ∨ s.state = .starting →
        (loop s).enabled = s.enabled ∧ (loop s).voltage = s.voltage)

/-- R160: every transition of `state`, of the filter and its emission, for a command and for the
loop; no other exists; USER_CONTROL, OPEN_CHIP and CLOSE_CHIP are entered only from STARTING. -/
def Obligations.NoOtherTransition : Prop :=
  (∀ (i : Instr) (s t : State), exec i s = .next t → t.buf = s.buf ∧
    t.state =
      if i = .openChip ∨ i = .closeChip ∨
          (i = .dcStart ∧ (s.state = .idle ∨ s.state = .userControl)) then .starting
      else if i = .dcStop then .idle
      else s.state) ∧
    (∀ s : State,
      (s.state ≠ .starting → filterAverage (sampleStep s) > s.cfg.maxCurrent →
        (loop s).state = .idle ∧ (loop s).buf = (sampleStep s).buf) ∧
      (s.state = .starting →
        (s.ports.tl - s.phaseStartTime > s.cfg.startingTime →
          (loop s).state = s.pendingState ∧ (loop s).buf = List.replicate s.cfg.n 0) ∧
        (s.ports.tl - s.phaseStartTime ≤ s.cfg.startingTime →
          (loop s).state = .starting ∧ (loop s).buf = s.buf)) ∧
      (s.state ≠ .starting → filterAverage (sampleStep s) ≤ s.cfg.maxCurrent →
        if (s.state = .openChip ∧ filterAverage (sampleStep s) > s.cfg.downThreshold) ∨
            (s.state = .closeChip ∧ filterAverage (sampleStep s) > s.cfg.upThreshold) then
          (loop s).state = .idle ∧ (loop s).buf = List.replicate s.cfg.n 0
        else (loop s).state = s.state ∧ (loop s).buf = (sampleStep s).buf)) ∧
    ∀ s : State, (loop s).state ≠ s.state → (loop s).state ≠ .idle → s.state = .starting

/-! ## Outputs and emissions -/

/-- R180: an emission latches the mapped values, records them as an event whether or not they
differ, and changes nothing else. -/
def Obligations.EmitLatchesAndRecords : Prop :=
  ∀ (s : State) (o : Outputs), o = signalMap s.cfg s.enabled s.direction s.voltage →
    emit s =
      { s with
        outDir := o.dir, outBrake := o.brake, outPwm := o.pwm, emissions := s.emissions ++ [o] }

/-- R181: the mapping from state to outputs; the duty is the floor of `v * FULL_SCALE / 12` and lies
in [0, FULL_SCALE]; the rule's examples. -/
def Obligations.SignalMapDrivesOrBrakes : Prop :=
  (∀ (c : Config) (d : Direction) (v : ℚ),
    signalMap c true d v = ⟨if d = .upward then 1 else 0, 0, duty c v⟩ ∧
      signalMap c false d v = ⟨0, 1, 0⟩) ∧
    (∀ (c : Config) (v : ℚ), 0 ≤ v → v ≤ 12 →
      (duty c v : Int) = ⌊v * c.fullScale / 12⌋ ∧ duty c v ≤ c.fullScale) ∧
    ∀ c : Config, c.fullScale = 255 →
      duty c 12 = 255 ∧ duty c 6 = 127 ∧ duty c 3 = 63 ∧ duty c (33 / 50) = 14 ∧ duty c 0 = 0

/-- R182: a tick emits once for DC_STOP and once in the loop unless it is an IDLE loop without an
interlock: 0, 1 or 2 times, and twice only for DC_STOP followed by the IDLE interlock. -/
def Obligations.EmissionsPerTick : Prop :=
  ∀ s l u : State, fetch s = .next l → exec (decode l.ports.w) l = .next u →
    ∃ (t : State) (es : List Outputs), step s = .next t ∧ t.emissions = s.emissions ++ es ∧
      es.length = (if decode l.ports.w = .dcStop then 1 else 0) +
        (if u.state = .idle ∧ filterAverage u ≤ u.cfg.maxCurrent then 0 else 1) ∧
      es.length ≤ 2 ∧
      (es.length = 2 → decode l.ports.w = .dcStop ∧ u.state = .idle ∧
        filterAverage u > u.cfg.maxCurrent ∧ es = [⟨0, 1, 0⟩, ⟨0, 1, 0⟩])

/-- R183: every emission of a tick is an event, DC_STOP's and the loop's, in that order, whether or
not it changes the registers; the output registers hold the last of them, and keep their values
where the tick emits nothing; what the host sees is these registers and all the events. An emission
of the values the registers already hold changes nothing but the events, which it lengthens. -/
def Obligations.OutputsHoldTheLastEmission : Prop :=
  (∀ s l u : State, fetch s = .next l → exec (decode l.ports.w) l = .next u →
    ∃ (t : State) (es : List Outputs), step s = .next t ∧
      es = (if decode l.ports.w = .dcStop then [⟨0, 1, 0⟩] else []) ++
        (if u.state = .idle ∧ filterAverage u ≤ u.cfg.maxCurrent then []
          else [signalMap t.cfg t.enabled t.direction t.voltage]) ∧
      t.hostView = ⟨es.getLast?.getD ⟨s.outDir, s.outBrake, s.outPwm⟩, s.emissions ++ es⟩) ∧
    ∀ s : State,
      signalMap s.cfg s.enabled s.direction s.voltage = ⟨s.outDir, s.outBrake, s.outPwm⟩ →
        emit s = { s with emissions := s.emissions ++ [⟨s.outDir, s.outBrake, s.outPwm⟩] }

/-- R37, R184: at the end of every tick from a state of the invariant, a disabled motor has zero
drive and its brake engaged. -/
def Obligations.DisabledMotorIsBraked : Prop :=
  ∀ s t : State, BlockInv s → step s = .next t → t.enabled = false →
    t.outDir = 0 ∧ t.outBrake = 1 ∧ t.outPwm = 0

/-! ## Reset, ticks and runs -/

/-- R230: the reset state, for every configuration. -/
def Obligations.ResetStateIsTheTable : Prop :=
  ∀ (c : Config) (s : State), s = State.resetWith c →
    s.state = .idle ∧ s.enabled = false ∧ s.direction = .downward ∧ s.voltage = 0 ∧
      s.pendingState = .idle ∧ s.phaseStartTime = 0 ∧
      (∀ k, k < c.n → readSlot s k = some 0) ∧ s.buf.length = c.n ∧ s.cursor = 0 ∧
      s.outDir = 0 ∧ s.outBrake = 1 ∧ s.outPwm = 0

/-- R24, R26: the binary codes of the states and directions; three codes are no state. -/
def Obligations.StateCodesAreTheTable : Prop :=
  OperatingState.code .idle = 0b000 ∧ OperatingState.code .userControl = 0b001 ∧
    OperatingState.code .starting = 0b010 ∧ OperatingState.code .openChip = 0b011 ∧
    OperatingState.code .closeChip = 0b100 ∧
    (∀ b st, OperatingState.ofCode b = some st ↔ b = OperatingState.code st) ∧
    OperatingState.ofCode 0b101 = none ∧ OperatingState.ofCode 0b110 = none ∧
    OperatingState.ofCode 0b111 = none ∧
    directionBit .downward = 0 ∧ directionBit .upward = 1 ∧ ∀ d, dirbit d = directionBit d

/-- The invariant holds at reset, for every legal configuration. -/
def Obligations.ResetMeetsTheInvariant : Prop :=
  (∀ c : Config, c.wf = true → BlockInv (State.resetWith c)) ∧ BlockInv State.reset

/-- R37 with the types of R20: every tick keeps the invariant. -/
def Obligations.StepKeepsTheInvariant : Prop :=
  ∀ s t : State, BlockInv s → step s = .next t → BlockInv t

/-- From R150: a tick applies the command its input decodes to, at that input, and then runs the
loop. The input is the next one supplied, and a tick consumes exactly it (the model's way of holding
inputs: logs 4, 6, 23). -/
def Obligations.StepRunsTheDecodedInstruction : Prop :=
  ∀ (s u : State) (i : TickInput), s.cfg.wf = true → Memory.wf s = true → HostDutiesMet s →
    i = nextInput s →
    exec (decode i.cmd.resolve.1)
      { s with
        ports := ⟨i.cmd.resolve.1, i.cmd.resolve.2, i.tc, i.raw, i.tl⟩,
        supplied := s.supplied.tail, ticks := s.ticks + 1 } = .next u →
    step s = .next (loop u) ∧ ∀ j js, s.supplied = j :: js → i = j

/-- The configuration constraints of R9, and that a tick refuses a configuration that breaks one
(where the refusal stands: log 3). -/
def Obligations.BadConfigurationIsRefused : Prop :=
  (∀ c : Config, c.wf = true ↔
    c.downThreshold < c.maxCurrent ∧ c.upThreshold < c.maxCurrent ∧ 1 ≤ c.n ∧
      0 < c.nominalSpeed ∧ 1 ≤ c.fullScale ∧ c.rawMin ≤ c.rawMax) ∧
    ∀ s : State, s.cfg.wf = false → step s = .refused .badConfiguration

/-- R200, R241: from a state of the invariant a tick completes exactly where the input meets the
host's duties; otherwise it is refused by name (the model's choice, log 6), and it never faults.
Where no input is supplied the tick takes a free one, which meets the duties (the model's choice,
log 5). -/
def Obligations.StepStopsOnlyOnBrokenDuties : Prop :=
  ∀ s : State, BlockInv s →
    ((∃ t, step s = .next t) ↔ HostDutiesMet s) ∧
      (¬ HostDutiesMet s →
        step s = .refused .clockRunsBack ∨ step s = .refused .sampleOutOfRange) ∧
      (s.supplied = [] → HostDutiesMet s)

/-- R35: no tick changes the configuration. -/
def Obligations.ConfigurationIsFixed : Prop :=
  ∀ s t : State, step s = .next t → t.cfg = s.cfg

/-- R200, R242: the block never stops stepping. From a state of the invariant, with any supplied
inputs that meet the host's duties and free ones after them (the model's choice, log 5), every number
of ticks completes. -/
def Obligations.BlockNeverStopsStepping : Prop :=
  ∀ s : State, BlockInv s → DutiesAlong s.cfg s.ports.tl s.supplied →
    ∀ k : Nat, ∃ t, runTicks k s = .next t ∧ BlockInv t

/-- R209, R255, R259: the settle window. NOP ticks up to the deadline leave STARTING running, sample
nothing, are not stopped by the interlock, and each emits the driven values; the first NOP tick past
it enters the pending state with the filter zeroed. -/
def Obligations.SettleWindowRuns : Prop :=
  ∀ (s : State) (is : List TickInput) (i : TickInput) (rest : List TickInput), BlockInv s →
    s.state = .starting → s.supplied = is ++ i :: rest →
    DutiesAlong s.cfg s.ports.tl s.supplied →
    (∀ j ∈ is, j.instr = .nop ∧ j.tl ≤ s.phaseStartTime + s.cfg.startingTime) →
    i.instr = .nop → s.phaseStartTime + s.cfg.startingTime < i.tl →
    ∃ t u : State, runTicks is.length s = .next t ∧ step t = .next u ∧
      t.state = .starting ∧ t.buf = s.buf ∧ t.cursor = s.cursor ∧ t.voltage = s.voltage ∧
      t.direction = s.direction ∧ t.enabled = true ∧
      t.emissions = s.emissions ++ List.replicate is.length s.signal ∧
      u.state = s.pendingState ∧ u.buf = List.replicate s.cfg.n 0 ∧ u.cursor = s.cursor ∧
      u.enabled = true ∧ u.emissions = t.emissions ++ [s.signal]

/-- R204, R250, R256: an OPEN_CHIP or CLOSE_CHIP tick applies the command before it samples: no
sample is taken, whatever the raw current, the interlock is suppressed, and within the settle time
the tick ends in STARTING with the filter untouched. -/
def Obligations.CommandActsBeforeTheLoop : Prop :=
  ∀ s : State, s.cfg.wf = true → Memory.wf s = true → HostDutiesMet s →
    (nextInput s).instr = .openChip ∨ (nextInput s).instr = .closeChip →
    ∃ t, step s = .next t ∧ t.cursor = s.cursor ∧ t.enabled = true ∧
      t.phaseStartTime = (nextInput s).tc ∧
      ((nextInput s).tl ≤ (nextInput s).tc + s.cfg.startingTime →
        t.state = .starting ∧ t.buf = s.buf) ∧
      ((nextInput s).tc + s.cfg.startingTime < (nextInput s).tl →
        t.state = t.pendingState ∧ t.buf = List.replicate s.cfg.n 0)

/-- R206: in IDLE only DC_START, OPEN_CHIP and CLOSE_CHIP leave IDLE. -/
def Obligations.IdleLastsUntilACommandStarts : Prop :=
  ∀ s : State, s.cfg.wf = true → Memory.wf s = true → HostDutiesMet s → s.state = .idle →
    (nextInput s).instr ∉ [.dcStart, .openChip, .closeChip] →
    ∃ t, step s = .next t ∧ t.state = .idle ∧ t.buf = s.buf ∧ t.cursor = s.cursor

/-- R251: the stale filter. In IDLE with the average above MAX_CURRENT every tick without a starting
command fires the interlock again: the voltage is 0, the motor disabled, the disabled pattern
emitted, the filter kept. -/
def Obligations.StaleFilterRefiresTheInterlock : Prop :=
  ∀ s : State, s.cfg.wf = true → Memory.wf s = true → HostDutiesMet s → s.state = .idle →
    filterAverage s > s.cfg.maxCurrent →
    (nextInput s).instr ∉ [.dcStart, .openChip, .closeChip] →
    ∃ t es, step s = .next t ∧ t.state = .idle ∧ t.voltage = 0 ∧ t.enabled = false ∧
      t.outputs = ⟨0, 1, 0⟩ ∧ t.buf = s.buf ∧ filterAverage t > t.cfg.maxCurrent ∧
      t.emissions = s.emissions ++ es ++ [⟨0, 1, 0⟩]

/-- R201: when each label of a safety condition holds, by the rule's column "detected in", and the
response to it. SC_OVERCURRENT: the average after sampling exceeds MAX_CURRENT in a state other than
STARTING. SC_INVALID_TRANSITION: DC_START, DC_MOTOR_DIR or SET_VOLTAGE outside IDLE and
USER_CONTROL. SC_UNRECOGNIZED: a word no row matches, or a message the text decoder drops.
SC_OUT_OF_RANGE: SET_VOLTAGE applied to a value outside [0, 12], or SET_SPEED to one outside
[0, NOMINAL_SPEED]. That a speed counts by its own range, and an ignored SET_VOLTAGE not at all, is
the model's choice (log 19). -/
def Obligations.SafetyConditionsHaveTheirResponses : Prop :=
  (∀ s : State,
    (SafetyCondition.overcurrent ∈ loopConditions s ↔
      s.state ≠ .starting ∧ filterAverage (sampleStep s) > s.cfg.maxCurrent) ∧
    (SafetyCondition.overcurrent ∈ loopConditions s →
      (loop s).state = .idle ∧ (loop s).enabled = false ∧ (loop s).voltage = 0 ∧
        (loop s).buf = (sampleStep s).buf)) ∧
    (∀ (s : State) (i : TickInput),
      (SafetyCondition.invalidTransition ∈ commandConditions s i ↔
        s.state ∉ [.idle, .userControl] ∧
          (i.instr = .dcStart ∨ (∃ d, i.instr = .dcMotorDir d) ∨ i.instr = .setVoltage)) ∧
      (SafetyCondition.invalidTransition ∈ commandConditions s i → exec i.instr s = .next s)) ∧
    (∀ (s : State) (i : TickInput),
      (∀ w val, i.cmd = .port w val →
        (SafetyCondition.unrecognized ∈ commandConditions s i ↔
          ∀ j, w &&& rowMask j ≠ rowMatch j)) ∧
      (∀ m, i.cmd = .text m →
        (SafetyCondition.unrecognized ∈ commandConditions s i ↔
          ¬ ∃ token value : List Byte, m = token ++ dash :: value ∧
            (token ∈ [tokenDcStop, tokenDcStart, tokenOpenChip, tokenCloseChip] ∨
              (token = tokenDcMotorDir ∧ (value = [0x30] ∨ value = [0x31])) ∨
              (token = tokenDcMotorSpeed ∧ ∃ q, decimalValue value = some q)))) ∧
      (SafetyCondition.unrecognized ∈ commandConditions s i →
        i.instr = .nop ∧ exec i.instr s = .next s)) ∧
    ∀ (s : State) (i : TickInput), s.cfg.wf = true → s.ports.val = i.cmd.resolve.2 →
      (SafetyCondition.outOfRange ∈ commandConditions s i ↔
        (i.instr = .setVoltage ∧ s.state ∈ [.idle, .userControl] ∧
            (s.ports.val < 0 ∨ 12 < s.ports.val)) ∨
          (i.instr = .dcMotorSpeed ∧ (s.ports.val < 0 ∨ s.cfg.nominalSpeed < s.ports.val))) ∧
      (SafetyCondition.outOfRange ∈ commandConditions s i →
        (i.instr = .setVoltage ∧
            exec i.instr s =
              .next { s with voltage := if s.ports.val < 0 then 0 else 12 }) ∨
          (i.instr = .dcMotorSpeed ∧
            exec i.instr s =
              .next { s with
                voltage := if s.ports.val < 0 then 0
                  else min 12 (max 0 s.cfg.nominalVoltage) }))

/-! ## What the host cannot see -/

/-- R36, R38: `pendingState` and `phaseStartTime` are unobservable outside STARTING: from two states
that differ in them only, the host sees the same outputs and events after every number of ticks. -/
def Obligations.PendingFieldsHiddenOutsideStarting : Prop :=
  ∀ (s : State) (p : OperatingState) (time : Nat) (k : Nat), s.state ≠ .starting →
    viewOf (runTicks k { s with pendingState := p, phaseStartTime := time }) =
      viewOf (runTicks k s)

/-- R36: the cursor is unobservable: from a zeroed buffer, two cursors give the host the same
outputs and events after every number of ticks. -/
def Obligations.CursorHiddenFromAZeroedFilter : Prop :=
  ∀ (s : State) (c : Nat) (k : Nat), Memory.wf s = true → c < s.cfg.n →
    s.buf = List.replicate s.cfg.n 0 →
    viewOf (runTicks k { s with cursor := c }) = viewOf (runTicks k s)
end

