-- ==== Sys2Proof/Laws/State.lean ====
section
/-! SUPPORT. What each update of the state leaves in each field, true by definition. -/

namespace Sys2Proof.Machine

variable (s : State)

/-! ### `writeSlot` -/

@[simp] theorem writeSlot_cfg (i : Nat) (v : Int) : (writeSlot s i v).cfg = s.cfg := rfl
@[simp] theorem writeSlot_enabled (i : Nat) (v : Int) :
    (writeSlot s i v).enabled = s.enabled := rfl
@[simp] theorem writeSlot_state (i : Nat) (v : Int) : (writeSlot s i v).state = s.state := rfl
@[simp] theorem writeSlot_pendingState (i : Nat) (v : Int) :
    (writeSlot s i v).pendingState = s.pendingState := rfl
@[simp] theorem writeSlot_direction (i : Nat) (v : Int) :
    (writeSlot s i v).direction = s.direction := rfl
@[simp] theorem writeSlot_voltage (i : Nat) (v : Int) :
    (writeSlot s i v).voltage = s.voltage := rfl
@[simp] theorem writeSlot_phaseStartTime (i : Nat) (v : Int) :
    (writeSlot s i v).phaseStartTime = s.phaseStartTime := rfl
@[simp] theorem writeSlot_buf (i : Nat) (v : Int) : (writeSlot s i v).buf = s.buf.set i v := rfl
@[simp] theorem writeSlot_cursor (i : Nat) (v : Int) : (writeSlot s i v).cursor = s.cursor := rfl
@[simp] theorem writeSlot_outDir (i : Nat) (v : Int) : (writeSlot s i v).outDir = s.outDir := rfl
@[simp] theorem writeSlot_outBrake (i : Nat) (v : Int) :
    (writeSlot s i v).outBrake = s.outBrake := rfl
@[simp] theorem writeSlot_outPwm (i : Nat) (v : Int) : (writeSlot s i v).outPwm = s.outPwm := rfl
@[simp] theorem writeSlot_emissions (i : Nat) (v : Int) :
    (writeSlot s i v).emissions = s.emissions := rfl
@[simp] theorem writeSlot_ports (i : Nat) (v : Int) : (writeSlot s i v).ports = s.ports := rfl
@[simp] theorem writeSlot_supplied (i : Nat) (v : Int) :
    (writeSlot s i v).supplied = s.supplied := rfl
@[simp] theorem writeSlot_ticks (i : Nat) (v : Int) : (writeSlot s i v).ticks = s.ticks := rfl

/-! ### `advanceCursor` -/

@[simp] theorem advanceCursor_cfg : (advanceCursor s).cfg = s.cfg := rfl
@[simp] theorem advanceCursor_enabled : (advanceCursor s).enabled = s.enabled := rfl
@[simp] theorem advanceCursor_state : (advanceCursor s).state = s.state := rfl
@[simp] theorem advanceCursor_pendingState :
    (advanceCursor s).pendingState = s.pendingState := rfl
@[simp] theorem advanceCursor_direction : (advanceCursor s).direction = s.direction := rfl
@[simp] theorem advanceCursor_voltage : (advanceCursor s).voltage = s.voltage := rfl
@[simp] theorem advanceCursor_phaseStartTime :
    (advanceCursor s).phaseStartTime = s.phaseStartTime := rfl
@[simp] theorem advanceCursor_buf : (advanceCursor s).buf = s.buf := rfl
@[simp] theorem advanceCursor_cursor : (advanceCursor s).cursor = (s.cursor + 1) % s.cfg.n := rfl
@[simp] theorem advanceCursor_outDir : (advanceCursor s).outDir = s.outDir := rfl
@[simp] theorem advanceCursor_outBrake : (advanceCursor s).outBrake = s.outBrake := rfl
@[simp] theorem advanceCursor_outPwm : (advanceCursor s).outPwm = s.outPwm := rfl
@[simp] theorem advanceCursor_emissions : (advanceCursor s).emissions = s.emissions := rfl
@[simp] theorem advanceCursor_ports : (advanceCursor s).ports = s.ports := rfl
@[simp] theorem advanceCursor_supplied : (advanceCursor s).supplied = s.supplied := rfl
@[simp] theorem advanceCursor_ticks : (advanceCursor s).ticks = s.ticks := rfl

/-! ### `filterReset` -/

@[simp] theorem filterReset_cfg : (filterReset s).cfg = s.cfg := rfl
@[simp] theorem filterReset_enabled : (filterReset s).enabled = s.enabled := rfl
@[simp] theorem filterReset_state : (filterReset s).state = s.state := rfl
@[simp] theorem filterReset_pendingState : (filterReset s).pendingState = s.pendingState := rfl
@[simp] theorem filterReset_direction : (filterReset s).direction = s.direction := rfl
@[simp] theorem filterReset_voltage : (filterReset s).voltage = s.voltage := rfl
@[simp] theorem filterReset_phaseStartTime :
    (filterReset s).phaseStartTime = s.phaseStartTime := rfl
@[simp] theorem filterReset_buf : (filterReset s).buf = List.replicate s.cfg.n 0 := rfl
@[simp] theorem filterReset_cursor : (filterReset s).cursor = s.cursor := rfl
@[simp] theorem filterReset_outDir : (filterReset s).outDir = s.outDir := rfl
@[simp] theorem filterReset_outBrake : (filterReset s).outBrake = s.outBrake := rfl
@[simp] theorem filterReset_outPwm : (filterReset s).outPwm = s.outPwm := rfl
@[simp] theorem filterReset_emissions : (filterReset s).emissions = s.emissions := rfl
@[simp] theorem filterReset_ports : (filterReset s).ports = s.ports := rfl
@[simp] theorem filterReset_supplied : (filterReset s).supplied = s.supplied := rfl
@[simp] theorem filterReset_ticks : (filterReset s).ticks = s.ticks := rfl

/-! ### `emit` -/

@[simp] theorem emit_cfg : (emit s).cfg = s.cfg := rfl
@[simp] theorem emit_enabled : (emit s).enabled = s.enabled := rfl
@[simp] theorem emit_state : (emit s).state = s.state := rfl
@[simp] theorem emit_pendingState : (emit s).pendingState = s.pendingState := rfl
@[simp] theorem emit_direction : (emit s).direction = s.direction := rfl
@[simp] theorem emit_voltage : (emit s).voltage = s.voltage := rfl
@[simp] theorem emit_phaseStartTime : (emit s).phaseStartTime = s.phaseStartTime := rfl
@[simp] theorem emit_buf : (emit s).buf = s.buf := rfl
@[simp] theorem emit_cursor : (emit s).cursor = s.cursor := rfl
@[simp] theorem emit_outDir : (emit s).outDir = s.signal.dir := rfl
@[simp] theorem emit_outBrake : (emit s).outBrake = s.signal.brake := rfl
@[simp] theorem emit_outPwm : (emit s).outPwm = s.signal.pwm := rfl
@[simp] theorem emit_emissions : (emit s).emissions = s.emissions ++ [s.signal] := rfl
@[simp] theorem emit_ports : (emit s).ports = s.ports := rfl
@[simp] theorem emit_supplied : (emit s).supplied = s.supplied := rfl
@[simp] theorem emit_ticks : (emit s).ticks = s.ticks := rfl

/-! ### `disable` -/

@[simp] theorem disable_cfg : (disable s).cfg = s.cfg := rfl
@[simp] theorem disable_enabled : (disable s).enabled = false := rfl
@[simp] theorem disable_state : (disable s).state = .idle := rfl
@[simp] theorem disable_pendingState : (disable s).pendingState = s.pendingState := rfl
@[simp] theorem disable_direction : (disable s).direction = s.direction := rfl
@[simp] theorem disable_voltage : (disable s).voltage = 0 := rfl
@[simp] theorem disable_phaseStartTime : (disable s).phaseStartTime = s.phaseStartTime := rfl
@[simp] theorem disable_buf : (disable s).buf = s.buf := rfl
@[simp] theorem disable_cursor : (disable s).cursor = s.cursor := rfl
@[simp] theorem disable_outDir : (disable s).outDir = s.outDir := rfl
@[simp] theorem disable_outBrake : (disable s).outBrake = s.outBrake := rfl
@[simp] theorem disable_outPwm : (disable s).outPwm = s.outPwm := rfl
@[simp] theorem disable_emissions : (disable s).emissions = s.emissions := rfl
@[simp] theorem disable_ports : (disable s).ports = s.ports := rfl
@[simp] theorem disable_supplied : (disable s).supplied = s.supplied := rfl
@[simp] theorem disable_ticks : (disable s).ticks = s.ticks := rfl

/-! ### `enterStarting` -/

@[simp] theorem enterStarting_cfg (n : OperatingState) (tc : Nat) :
    (enterStarting s n tc).cfg = s.cfg := rfl
@[simp] theorem enterStarting_enabled (n : OperatingState) (tc : Nat) :
    (enterStarting s n tc).enabled = true := rfl
@[simp] theorem enterStarting_state (n : OperatingState) (tc : Nat) :
    (enterStarting s n tc).state = .starting := rfl
@[simp] theorem enterStarting_pendingState (n : OperatingState) (tc : Nat) :
    (enterStarting s n tc).pendingState = n := rfl
@[simp] theorem enterStarting_direction (n : OperatingState) (tc : Nat) :
    (enterStarting s n tc).direction = s.direction := rfl
@[simp] theorem enterStarting_voltage (n : OperatingState) (tc : Nat) :
    (enterStarting s n tc).voltage = s.voltage := rfl
@[simp] theorem enterStarting_phaseStartTime (n : OperatingState) (tc : Nat) :
    (enterStarting s n tc).phaseStartTime = tc := rfl
@[simp] theorem enterStarting_buf (n : OperatingState) (tc : Nat) :
    (enterStarting s n tc).buf = s.buf := rfl
@[simp] theorem enterStarting_cursor (n : OperatingState) (tc : Nat) :
    (enterStarting s n tc).cursor = s.cursor := rfl
@[simp] theorem enterStarting_outDir (n : OperatingState) (tc : Nat) :
    (enterStarting s n tc).outDir = s.outDir := rfl
@[simp] theorem enterStarting_outBrake (n : OperatingState) (tc : Nat) :
    (enterStarting s n tc).outBrake = s.outBrake := rfl
@[simp] theorem enterStarting_outPwm (n : OperatingState) (tc : Nat) :
    (enterStarting s n tc).outPwm = s.outPwm := rfl
@[simp] theorem enterStarting_emissions (n : OperatingState) (tc : Nat) :
    (enterStarting s n tc).emissions = s.emissions := rfl
@[simp] theorem enterStarting_ports (n : OperatingState) (tc : Nat) :
    (enterStarting s n tc).ports = s.ports := rfl
@[simp] theorem enterStarting_supplied (n : OperatingState) (tc : Nat) :
    (enterStarting s n tc).supplied = s.supplied := rfl
@[simp] theorem enterStarting_ticks (n : OperatingState) (tc : Nat) :
    (enterStarting s n tc).ticks = s.ticks := rfl

/-! ### `latch` -/

@[simp] theorem latch_cfg (i : TickInput) : (latch s i).cfg = s.cfg := rfl
@[simp] theorem latch_enabled (i : TickInput) : (latch s i).enabled = s.enabled := rfl
@[simp] theorem latch_state (i : TickInput) : (latch s i).state = s.state := rfl
@[simp] theorem latch_pendingState (i : TickInput) :
    (latch s i).pendingState = s.pendingState := rfl
@[simp] theorem latch_direction (i : TickInput) : (latch s i).direction = s.direction := rfl
@[simp] theorem latch_voltage (i : TickInput) : (latch s i).voltage = s.voltage := rfl
@[simp] theorem latch_phaseStartTime (i : TickInput) :
    (latch s i).phaseStartTime = s.phaseStartTime := rfl
@[simp] theorem latch_buf (i : TickInput) : (latch s i).buf = s.buf := rfl
@[simp] theorem latch_cursor (i : TickInput) : (latch s i).cursor = s.cursor := rfl
@[simp] theorem latch_outDir (i : TickInput) : (latch s i).outDir = s.outDir := rfl
@[simp] theorem latch_outBrake (i : TickInput) : (latch s i).outBrake = s.outBrake := rfl
@[simp] theorem latch_outPwm (i : TickInput) : (latch s i).outPwm = s.outPwm := rfl
@[simp] theorem latch_emissions (i : TickInput) : (latch s i).emissions = s.emissions := rfl
@[simp] theorem latch_ports (i : TickInput) : (latch s i).ports = i.toPorts := rfl
@[simp] theorem latch_supplied (i : TickInput) : (latch s i).supplied = s.supplied.tail := rfl
@[simp] theorem latch_ticks (i : TickInput) : (latch s i).ticks = s.ticks + 1 := rfl

/-! ### Composite updates and derived reads -/

@[simp] theorem filterSample_eq (raw : Int) :
    filterSample s raw = advanceCursor (writeSlot s s.cursor raw) := rfl
@[simp] theorem thresholdStop_eq : thresholdStop s = filterReset (disable s) := rfl
@[simp] theorem emergencyStop_eq : emergencyStop s = emit (disable s) := rfl
@[simp] theorem emit_outputs : (emit s).outputs = s.signal := rfl
@[simp] theorem disable_signal : (disable s).signal = disabledPattern := rfl
@[simp] theorem filterReset_signal : (filterReset s).signal = s.signal := rfl
@[simp] theorem writeSlot_signal (i : Nat) (v : Int) : (writeSlot s i v).signal = s.signal := rfl
@[simp] theorem advanceCursor_signal : (advanceCursor s).signal = s.signal := rfl
@[simp] theorem emit_signal : (emit s).signal = s.signal := rfl
@[simp] theorem writeSlot_outputs (i : Nat) (v : Int) :
    (writeSlot s i v).outputs = s.outputs := rfl
@[simp] theorem advanceCursor_outputs : (advanceCursor s).outputs = s.outputs := rfl
@[simp] theorem filterReset_outputs : (filterReset s).outputs = s.outputs := rfl
@[simp] theorem disable_outputs : (disable s).outputs = s.outputs := rfl
@[simp] theorem latch_outputs (i : TickInput) : (latch s i).outputs = s.outputs := rfl
@[simp] theorem latch_signal (i : TickInput) : (latch s i).signal = s.signal := rfl

end Sys2Proof.Machine
end

