-- ==== Sys2Proof/Laws/Memory.lean ====
section
/-! SUPPORT. The filter buffer: reading what was written, and every operation keeps its canonical
form (`Memory.wf`). -/

namespace Sys2Proof.Machine

theorem memory_wf_iff (s : State) :
    Memory.wf s = true ↔ s.buf.length = s.cfg.n ∧ s.cursor < s.cfg.n := by
  simp [Memory.wf]

/-- Only the constants, the buffer and the cursor decide the canonical form. -/
theorem memory_wf_congr {s t : State} (hc : t.cfg = s.cfg) (hb : t.buf = s.buf)
    (hk : t.cursor = s.cursor) : Memory.wf t = Memory.wf s := by
  simp [Memory.wf, hc, hb, hk]

theorem readSlot_writeSlot_same (s : State) (i : Nat) (v : Int) (h : i < s.buf.length) :
    readSlot (writeSlot s i v) i = some v := by
  simp [readSlot, h]

theorem readSlot_writeSlot_other (s : State) (i j : Nat) (v : Int) (h : i ≠ j) :
    readSlot (writeSlot s i v) j = readSlot s j := by
  simp [readSlot, List.getElem?_set_ne h]

theorem writeSlot_wf (s : State) (i : Nat) (v : Int) :
    Memory.wf (writeSlot s i v) = Memory.wf s := by
  rw [Bool.eq_iff_iff, memory_wf_iff, memory_wf_iff]
  simp

theorem advanceCursor_wf (s : State) (h : Memory.wf s = true) :
    Memory.wf (advanceCursor s) = true := by
  rw [memory_wf_iff] at h ⊢
  exact ⟨h.1, Nat.mod_lt _ (by omega)⟩

theorem filterSample_wf (s : State) (raw : Int) (h : Memory.wf s = true) :
    Memory.wf (filterSample s raw) = true :=
  advanceCursor_wf _ (by rw [writeSlot_wf]; exact h)

theorem filterReset_wf (s : State) (h : Memory.wf s = true) :
    Memory.wf (filterReset s) = true := by
  rw [memory_wf_iff] at h ⊢
  exact ⟨by simp, h.2⟩

/-- A block with a legal configuration starts with its filter in canonical form. -/
theorem resetWith_wf (c : Config) (h : c.wf = true) :
    Memory.wf (State.resetWith c) = true := by
  rw [memory_wf_iff]
  simp only [Config.wf, Bool.and_eq_true, decide_eq_true_eq] at h
  exact ⟨by simp [State.resetWith], by simp only [State.resetWith]; omega⟩

theorem reset_wf : Memory.wf State.reset = true := by decide

end Sys2Proof.Machine
end

