-- ==== Sys2Proof/Laws/Operands.lean ====
section
/-! SUPPORT. The bounds of clamped values and of the PWM duty. -/

namespace Sys2Proof.Machine

theorem le_clamp {lo hi : ℚ} (x : ℚ) (h : lo ≤ hi) : lo ≤ clamp lo hi x :=
  le_min h (le_max_left _ _)

theorem clamp_le (lo hi x : ℚ) : clamp lo hi x ≤ hi := min_le_left _ _

theorem clamp_of_mem {lo hi x : ℚ} (h₁ : lo ≤ x) (h₂ : x ≤ hi) : clamp lo hi x = x := by
  rw [clamp, max_eq_right h₁, min_eq_right h₂]

theorem clamp_of_le {lo hi x : ℚ} (h : lo ≤ hi) (hx : x ≤ lo) : clamp lo hi x = lo := by
  rw [clamp, max_eq_left hx, min_eq_right h]

theorem clamp_of_ge {lo hi x : ℚ} (h : lo ≤ hi) (hx : hi ≤ x) : clamp lo hi x = hi := by
  rw [clamp, max_eq_right (h.trans hx), min_eq_left hx]

theorem vMax_nonneg : (0 : ℚ) ≤ vMax := by norm_num [vMax]

theorem clampVoltage_mem (v : ℚ) : 0 ≤ clampVoltage v ∧ clampVoltage v ≤ vMax :=
  ⟨le_clamp v vMax_nonneg, clamp_le _ _ _⟩

theorem speedToVoltage_mem (c : Config) (x : ℚ) :
    0 ≤ speedToVoltage c x ∧ speedToVoltage c x ≤ vMax :=
  ⟨le_clamp _ vMax_nonneg, clamp_le _ _ _⟩

theorem clampInt_mem {lo hi : Int} (x : Int) (h : lo ≤ hi) :
    lo ≤ clampInt lo hi x ∧ clampInt lo hi x ≤ hi := by
  simp only [clampInt]
  omega

end Sys2Proof.Machine
end

