-- ==== Sys2Proof/Laws/PerInstr.lean ====
section
/-! SUPPORT. Statements made once per instruction. -/

namespace Sys2Proof.Laws.InRow

/-- The word of an instruction is matched by its row of the opcode map (30_encoding R74). -/
def Statement (i : Instr) : Prop := encode i &&& rowMask i = rowMatch i

theorem nop : Statement .nop := rfl
theorem dcStop : Statement .dcStop := rfl
theorem dcStart : Statement .dcStart := rfl
theorem dcMotorDir (d : Direction) : Statement (.dcMotorDir d) := by cases d <;> rfl
theorem dcMotorSpeed : Statement .dcMotorSpeed := rfl
theorem openChip : Statement .openChip := rfl
theorem closeChip : Statement .closeChip := rfl
theorem setVoltage : Statement .setVoltage := rfl

end Sys2Proof.Laws.InRow
end

