-- ==== Sys2Proof/Laws/Step.lean ====
section
/-! SUPPORT. What a tick can do, said once: the start of a tick, the step, the loop, its branches. -/

namespace Sys2Proof.Machine

/-- A tick starts only on a legal configuration, a filter in form and an input that meets the
host's duties, and it then latches that input. -/
theorem fetch_eq_next {s t : State} :
    fetch s = .next t ↔
      s.cfg.wf = true ∧ Memory.wf s = true ∧ clockDuty s (nextInput s) = true ∧
        sampleDuty s (nextInput s) = true ∧ t = latch s (nextInput s) := by
  unfold fetch
  split_ifs with h₁ h₂ h₃ h₄
  · simp [h₁]
  · simp [h₂]
  · simp [h₃]
  · simp [h₄]
  · simp only [Bool.not_eq_false] at h₁ h₂ h₃ h₄
    simp [h₁, h₂, h₃, h₄, eq_comm]

/-- A step that answers is a latched input, its command applied, and one loop. -/
theorem step_eq_next {s t : State} :
    step s = .next t ↔
      ∃ l u, fetch s = .next l ∧ exec (decode l.ports.w) l = .next u ∧ t = loop u := by
  unfold step
  cases hf : fetch s with
  | fault r => simp
  | refused r => simp
  | next l =>
    cases he : exec (decode l.ports.w) l with
    | fault r => simp [he]
    | refused r => simp [he]
    | next u => simp [he, eq_comm]

theorem clockDuty_iff (s : State) (i : TickInput) :
    clockDuty s i = true ↔ s.ports.tl ≤ i.tc ∧ i.tc ≤ i.tl := by
  simp [clockDuty]

theorem sampleDuty_iff (s : State) (i : TickInput) :
    sampleDuty s i = true ↔ s.cfg.rawMin ≤ i.raw ∧ i.raw ≤ s.cfg.rawMax := by
  simp [sampleDuty]

theorem drawnInput_clockDuty (s : State) (h : HostDraw) :
    clockDuty s (drawnInput s h) = true := by
  rw [clockDuty_iff]
  simp only [drawnInput]
  omega

theorem drawnInput_sampleDuty (s : State) (h : HostDraw) (hr : s.cfg.rawMin ≤ s.cfg.rawMax) :
    sampleDuty s (drawnInput s h) = true := by
  rw [sampleDuty_iff]
  exact clampInt_mem h.raw hr

/-- Every input that meets the host's duties arises from some free draw: the free input leaves out
no run of the host. -/
theorem drawnInput_complete (s : State) (i : TickInput) (hc : clockDuty s i = true)
    (hr : sampleDuty s i = true) : ∃ h, drawnInput s h = i := by
  rw [clockDuty_iff] at hc
  rw [sampleDuty_iff] at hr
  refine ⟨⟨i.cmd, i.raw, i.tc - s.ports.tl, i.tl - i.tc⟩, ?_⟩
  cases i
  simp only [drawnInput, clampInt, TickInput.mk.injEq, true_and]
  simp only at hc hr
  omega

/-! ## The loop -/

theorem sampleStep_of_samples {s : State} (h : s.state.samples = true) :
    sampleStep s = filterSample s s.ports.raw := by simp [sampleStep, h]

theorem sampleStep_of_not {s : State} (h : s.state.samples = false) : sampleStep s = s := by
  simp [sampleStep, h]

/-- Sampling changes the buffer and the cursor only. -/
theorem sampleStep_frame (s : State) :
    sampleStep s = { s with buf := (sampleStep s).buf, cursor := (sampleStep s).cursor } := by
  unfold sampleStep
  split_ifs <;> rfl

@[simp] theorem sampleStep_cfg (s : State) : (sampleStep s).cfg = s.cfg := by
  rw [sampleStep_frame]
@[simp] theorem sampleStep_state (s : State) : (sampleStep s).state = s.state := by
  rw [sampleStep_frame]
@[simp] theorem sampleStep_ports (s : State) : (sampleStep s).ports = s.ports := by
  rw [sampleStep_frame]
@[simp] theorem sampleStep_emissions (s : State) : (sampleStep s).emissions = s.emissions := by
  rw [sampleStep_frame]
@[simp] theorem sampleStep_supplied (s : State) : (sampleStep s).supplied = s.supplied := by
  rw [sampleStep_frame]
@[simp] theorem sampleStep_signal (s : State) : (sampleStep s).signal = s.signal := by
  rw [sampleStep_frame]; rfl
@[simp] theorem sampleStep_outputs (s : State) : (sampleStep s).outputs = s.outputs := by
  rw [sampleStep_frame]; rfl

theorem sampleStep_wf (s : State) (h : Memory.wf s = true) : Memory.wf (sampleStep s) = true := by
  unfold sampleStep
  split_ifs
  · exact filterSample_wf s _ h
  · exact h

/-- Everything the loop can do: the interlock, or the branch of the state. -/
theorem loop_cases (s : State) :
    (s.state ≠ .starting ∧ filterAverage (sampleStep s) > s.cfg.maxCurrent ∧
        loop s = emergencyStop (sampleStep s)) ∨
      ((s.state = .starting ∨ filterAverage (sampleStep s) ≤ s.cfg.maxCurrent) ∧
        loop s = branch (sampleStep s) (filterAverage (sampleStep s))) := by
  unfold loop judge
  by_cases h : interlockFires (sampleStep s) (filterAverage (sampleStep s)) = true
  · left
    simp only [interlockFires, overMax, Bool.and_eq_true, decide_eq_true_eq, sampleStep_state,
      sampleStep_cfg] at h
    refine ⟨h.1, h.2, ?_⟩
    rw [if_pos (by simpa [interlockFires, overMax] using h)]
  · right
    refine ⟨?_, by rw [if_neg h]⟩
    simp only [interlockFires, overMax, Bool.and_eq_true, decide_eq_true_eq, sampleStep_state,
      sampleStep_cfg, not_and, not_lt, gt_iff_lt, ne_eq] at h
    tauto

/-- Everything the branch can do. -/
theorem branch_cases (s : State) (current : Int) :
    (s.state = .idle ∧ branch s current = s) ∨
      (s.state = .userControl ∧ branch s current = emit s) ∨
      (s.state = .starting ∧ branch s current = emit (startingExit s)) ∨
      (s.state = .openChip ∧ branch s current = emit (openChipStop s current)) ∨
      (s.state = .closeChip ∧ branch s current = emit (closeChipStop s current)) := by
  unfold branch
  cases s.state <;> simp

end Sys2Proof.Machine
end

