-- ==== Sys2Proof/Laws/Run.lean ====
section
/-! SUPPORT. Running several ticks: the first tick, then the rest. -/

namespace Sys2Proof.Machine

/-- A run is one step and the run of the rest, on any machine of the host's interface. -/
theorem core_run_succ (M : Host.Core) (k : Nat) (s : M.State) :
    M.run (k + 1) s =
      match M.step s with
      | .next t => M.run k t
      | .fault r => .fault r
      | .refused r => .refused r := rfl

@[simp] theorem runTicks_zero (s : State) : runTicks 0 s = .next s := rfl

theorem runTicks_succ_of_next {s t : State} (k : Nat) (h : step s = .next t) :
    runTicks (k + 1) s = runTicks k t := by
  have h' : Sys2Proof.core.step s = .next t := h
  refine (core_run_succ Sys2Proof.core k s).trans ?_
  rw [h']
  rfl

theorem runTicks_succ_of_fault {s : State} {r : Fault} (k : Nat) (h : step s = .fault r) :
    runTicks (k + 1) s = .fault r := by
  have h' : Sys2Proof.core.step s = .fault r := h
  refine (core_run_succ Sys2Proof.core k s).trans ?_
  rw [h']
  rfl

theorem runTicks_succ_of_refused {s : State} {r : Refusal} (k : Nat) (h : step s = .refused r) :
    runTicks (k + 1) s = .refused r := by
  have h' : Sys2Proof.core.step s = .refused r := h
  refine (core_run_succ Sys2Proof.core k s).trans ?_
  rw [h']
  rfl

end Sys2Proof.Machine
end

