-- ==== Sys2Proof/Tests/Slice0.lean ====
section
/-! SUPPORT. Tests and witnesses. Expected results are the spec's own: 95_test_vectors and the
examples of the rules. A `witness_` theorem shows a state and operands that meet the premises of the
statement it is named after. -/

open Sys2Proof Sys2Proof.Machine

namespace Sys2Proof.Tests

/-! ## Helpers -/

/-- A block in configuration EX, disabled and at rest but for these fields. -/
def blockIn (st : OperatingState) (buf : List Int) (cursor : Nat) : State :=
  { State.reset with state := st, buf := buf, cursor := cursor }

/-- A driven block: OPEN_CHIP was issued at time 0, so the voltage is 6 and the duty 127. -/
def driven (st : OperatingState) (buf : List Int) (cursor : Nat) : State :=
  { State.reset with
    enabled := true, state := st, pendingState := .openChip, voltage := 6, outBrake := 0,
    outPwm := 127, buf := buf, cursor := cursor }

/-- The block with the raw sample and loop time of a tick at its ports. -/
def atPorts (s : State) (raw : Int) (tl : Nat) : State := { s with ports := ⟨0, 0, tl, raw, tl⟩ }

/-- The block with a command value and a command time at its ports. -/
def withValue (s : State) (val : ℚ) (tc : Nat) : State := { s with ports := ⟨0, val, tc, 0, tc⟩ }

/-- The state an outcome leads to, or the one given where it stops. -/
def stateOr (s : State) : Host.Outcome State Fault Refusal → State
  | .next t => t
  | .fault _ => s
  | .refused _ => s

/-- The state after a command. -/
def after (i : Instr) (s : State) : State := stateOr s (exec i s)

/-- A port command at time `t` with sample `raw`. -/
def portTick (w : CommandWord) (val : ℚ) (t : Nat) (raw : Int) : TickInput :=
  ⟨.port w val, t, raw, t⟩

/-! ## WellFormed: each constraint of 00_scope R9 refuses a term that breaks it -/

theorem test_wf_ex : Config.ex.wf = true := by decide
theorem test_wf_refuses_no_samples : { Config.ex with n := 0 }.wf = false := by decide
theorem test_wf_refuses_zero_speed : { Config.ex with nominalSpeed := 0 }.wf = false := by decide
theorem test_wf_refuses_zero_scale : { Config.ex with fullScale := 0 }.wf = false := by decide
theorem test_wf_refuses_empty_range : { Config.ex with rawMin := 5001 }.wf = false := by decide
theorem test_wf_refuses_down_at_max : { Config.ex with downThreshold := 1000 }.wf = false := by
  decide
theorem test_wf_refuses_up_at_max : { Config.ex with upThreshold := 1000 }.wf = false := by decide

/-! ## Decode (30_encoding R74, R75; 95 section 2.1) -/

theorem test_decode_commands :
    [0b00000000, 0b00000001, 0b00000010, 0b00000011, 0b00010011, 0b00000100, 0b00000101,
      0b00000110, 0b00000111].map decode =
      [.nop, .dcStop, .dcStart, .dcMotorDir .downward, .dcMotorDir .upward, .dcMotorSpeed,
        .openChip, .closeChip, .setVoltage] := by decide

theorem test_decode_reserved :
    [0x08, 0x0F, 0x11, 0x12, 0x17, 0x23, 0x83, 0xE1, 0xFF].map decode =
      List.replicate 9 Instr.nop := by decide

theorem test_decodeTableWord : decodeTableWord 8 0x13 = some (.dcMotorDir .upward) ∧
    decodeTableWord 16 0x13 = none := by decide

/-! ## Text decoding (95 section 2.2) -/

theorem test_text_tokens :
    textDecode (ascii "DC_STOP-".toList) = (0x01, 0) ∧
      textDecode (ascii "DC_STOP".toList) = (0x00, 0) ∧
      textDecode (ascii "DC_START-7".toList) = (0x02, 0) ∧
      textDecode (ascii "dc_start-".toList) = (0x00, 0) ∧
      textDecode (ascii "DC_MOTOR_DIR-1".toList) = (0x13, 0) ∧
      textDecode (ascii "DC_MOTOR_DIR-01".toList) = (0x00, 0) ∧
      textDecode (ascii "CLOSE_CHIP-x".toList) = (0x06, 0) ∧
      textDecode (ascii "SET_VOLTAGE-5".toList) = (0x00, 0) ∧ textDecode [] = (0x00, 0) := by
  decide +kernel

theorem test_text_speed :
    ["5.5", "-5", ".5", "5.", "+7"].map (fun v => decimalValue (ascii v.toList)) =
        [some (11 / 2), some (-5), some (1 / 2), some 5, some 7] ∧
      ["", "abc", "1e3", "5.5\n", ".", "-", "1.2.3"].map (fun v => decimalValue (ascii v.toList)) =
        List.replicate 7 none := by decide +kernel

/-! ## Filter (95 section 2.3) -/

theorem test_filterSample_wraps :
    (filterSample (blockIn .userControl [700, 0, 0, 0] 3) 5).buf = [700, 0, 0, 5] ∧
      (filterSample (blockIn .userControl [700, 0, 0, 0] 3) 5).cursor = 0 := by decide

theorem test_filterAverage_rounds_toward_zero :
    [[700, 700, 0, 0], [1, 1, 0, 0], [-3, 0, 0, 0], [-5, 0, 0, 0], [2401, 0, 0, 0],
      [2400, 2404, 0, 0]].map (fun b => filterAverage (blockIn .idle b 0)) =
      [350, 0, 0, -1, 600, 1201] := by decide

theorem test_filterReset_keeps_cursor :
    (filterReset (blockIn .idle [400, 400, 0, 0] 2)).buf = [0, 0, 0, 0] ∧
      (filterReset (blockIn .idle [400, 400, 0, 0] 2)).cursor = 2 := by decide

/-! ## Speeds and duty (95 section 2.4) -/

theorem test_speedToVoltage :
    [0, 11 / 2, 25, 50, 100, 150, -3].map (speedToVoltage Config.ex) =
        [0, 33 / 50, 3, 6, 12, 12, 0] ∧
      speedToVoltage { Config.ex with nominalVoltage := 24 } 75 = 12 := by decide +kernel

theorem test_duty : [0, 33 / 50, 3, 6, 12].map (duty Config.ex) = [0, 14, 63, 127, 255] := by
  decide +kernel

/-! ## Commands (41_commands, 95 section 2.5) -/

theorem test_nop : exec .nop State.reset = .next State.reset := rfl

theorem test_dcStart :
    (after .dcStart (withValue State.reset 0 20)).state = .starting ∧
      (after .dcStart (withValue State.reset 0 20)).phaseStartTime = 20 := by decide

theorem test_dcStart_ignored : (after .dcStart (driven .openChip [0, 0, 0, 0] 0)).state = .openChip
    ∧ (after .dcStart (driven .openChip [0, 0, 0, 0] 0)).pendingState = .openChip := by decide

theorem test_dcStop :
    (after .dcStop (driven .closeChip [400, 0, 0, 0] 1)).outputs = ⟨0, 1, 0⟩ ∧
      (after .dcStop (driven .closeChip [400, 0, 0, 0] 1)).buf = [400, 0, 0, 0] := by decide

theorem test_dcMotorDir : (after (.dcMotorDir .upward) State.reset).direction = .upward := by decide

theorem test_dcMotorDir_ignored :
    (after (.dcMotorDir .upward) (driven .openChip [0, 0, 0, 0] 0)).direction = .downward := by
  decide

theorem test_dcMotorSpeed_ungated :
    (after .dcMotorSpeed (withValue (driven .openChip [0, 0, 0, 0] 0) 100 0)).voltage = 12 := by
  decide +kernel

theorem test_openChip :
    (after .openChip (withValue (driven .closeChip [0, 0, 0, 0] 0) 0 300)).phaseStartTime = 300 ∧
      (after .openChip (withValue (driven .closeChip [0, 0, 0, 0] 0) 0 300)).voltage = 6 := by
  decide +kernel

theorem test_closeChip :
    (after .closeChip (withValue State.reset 0 500)).direction = .upward ∧
      (after .closeChip (withValue State.reset 0 500)).voltage = 3 := by decide +kernel

theorem test_setVoltage_clamps :
    (after .setVoltage (withValue State.reset 20 0)).voltage = 12 ∧
      (after .setVoltage (withValue State.reset (-1) 0)).voltage = 0 := by decide

theorem test_setVoltage_ignored :
    (after .setVoltage (withValue (driven .starting [0, 0, 0, 0] 0) 2 0)).voltage = 6 := by decide

/-! ## The loop (95 section 2.6) -/

theorem test_loop_idle_interlock :
    (loop (blockIn .idle [4004, 0, 0, 0] 1)).emissions = [⟨0, 1, 0⟩] ∧
      (loop (blockIn .idle [4000, 0, 0, 0] 1)).emissions = [] := by decide

theorem test_loop_starting_deadline :
    (loop (atPorts (driven .starting [4004, 0, 0, 0] 1) 5000 100)).state = .starting ∧
      (loop (atPorts (driven .starting [4004, 0, 0, 0] 1) 0 101)).state = .openChip := by decide

theorem test_loop_open_chip :
    (loop (atPorts (driven .openChip [0, 0, 0, 0] 0) 2400 0)).state = .openChip ∧
      (loop (atPorts (driven .openChip [0, 0, 0, 0] 0) 2404 0)).buf = [0, 0, 0, 0] ∧
      (loop (atPorts (driven .openChip [2400, 0, 0, 0] 1) 2404 0)).buf = [2400, 2404, 0, 0] := by
  decide

theorem test_loop_close_chip :
    (loop (atPorts (driven .closeChip [0, 0, 0, 0] 0) 2000 0)).state = .closeChip ∧
      (loop (atPorts (driven .closeChip [0, 0, 0, 0] 0) 2004 0)).state = .idle ∧
      (loop (atPorts (driven .closeChip [0, 0, 0, 0] 0) 4004 0)).buf = [4004, 0, 0, 0] := by decide

/-- 95 section 2.6: DC_STOP over a stale filter emits twice in one tick. -/
theorem test_step_emits_twice :
    (stateOr State.reset (step { blockIn .idle [4004, 0, 0, 0] 1 with
      supplied := [portTick 0x01 0 0 0] })).emissions = [⟨0, 1, 0⟩, ⟨0, 1, 0⟩] := by decide

/-- 95 section 2.6: a late loop time ends STARTING in the tick that entered it. -/
theorem test_step_settles_at_once :
    (stateOr State.reset (step { State.reset with
      supplied := [⟨.text (ascii "DC_START-".toList), 10, 0, 111⟩] })).state = .userControl := by
  decide +kernel

/-! ## The first instruction after reset -/

theorem test_withFetchWord_runs_first :
    (stateOr State.reset (step (State.reset.withFetchWord 8 0x05))).pendingState = .openChip ∧
      (stateOr State.reset (step (State.reset.withFetchWord 8 0x13))).direction = .upward := by
  decide

/-! ## Listing (30_encoding R88) -/

theorem test_listing_two_lines :
    parseListing (ascii "TICK t=0   i=0   OPEN_CHIP ; w=0x05\nTICK t=50  i=2000\n".toList) =
      some [portTick 0x05 0 0 0, portTick 0x00 0 50 2000] := by decide +kernel

/-! ## Witnesses: states and operands that meet the statements' premises -/

theorem inv_driven_starting : BlockInv (driven .starting [4004, 0, 0, 0] 1) where
  config := by decide
  filter := by decide
  slots := by unfold SlotsInRange; decide
  voltage := by unfold VoltageInRange; decide
  idle := by unfold IdleIffDisabled; decide
  pending := by unfold PendingLegal; decide
  outputs := by unfold OutputsMatch; decide +kernel
  clock := by decide

theorem inv_stale_idle : BlockInv (blockIn .idle [4004, 0, 0, 0] 1) where
  config := by decide
  filter := by decide
  slots := by unfold SlotsInRange; decide
  voltage := by unfold VoltageInRange; decide
  idle := by unfold IdleIffDisabled; decide
  pending := by unfold PendingLegal; decide
  outputs := by unfold OutputsMatch; decide
  clock := by decide

/-- The invariant does not read the inputs still to come. -/
theorem inv_with_supplied {s : State} (h : BlockInv s) (is : List TickInput) :
    BlockInv { s with supplied := is } :=
  ⟨h.config, h.filter, h.slots, h.voltage, h.idle, h.pending, h.outputs, h.clock⟩

/-- The last word below each kind of reserved word, and the first one in it. -/
theorem witness_ReservedWordsAreNop :
    (∀ i, (0x08 : CommandWord) &&& rowMask i ≠ rowMatch i) ∧
      (∀ i, (0x10 : CommandWord) &&& rowMask i ≠ rowMatch i) ∧
      (∀ i, (0x20 : CommandWord) &&& rowMask i ≠ rowMatch i) ∧
      (0x07 : CommandWord) &&& rowMask .setVoltage = rowMatch .setVoltage := by
  refine ⟨?_, ?_, ?_, by decide⟩ <;> intro i <;> cases i with
  | dcMotorDir d => cases d <;> decide
  | _ => decide

theorem witness_TextDecoderFollowsItsTable :
    dash ∉ tokenDcStop ∧ dash ∉ tokenDcStart ∧ dash ∉ tokenDcMotorDir ∧ dash ∉ tokenDcMotorSpeed ∧
      dash ∉ tokenOpenChip ∧ dash ∉ tokenCloseChip ∧ dash ∉ ([] : List Byte) ∧
      decimalValue (ascii ['7']) = some 7 ∧ decimalValue (ascii ['x']) = none ∧
      ([] : List Byte) ∉ [tokenDcStop, tokenDcStart, tokenDcMotorDir, tokenDcMotorSpeed,
        tokenOpenChip, tokenCloseChip] := by decide +kernel

theorem witness_NopChangesNothing : ∃ l,
    fetch { State.reset with supplied := [portTick 0x08 0 0 0] } = .next l ∧
      decode l.ports.w = .nop ∧ (textDecode []).1 = 0x00 := ⟨_, rfl, by decide, by decide⟩

/-- A state in each operating state, for the gates of DC_START, DC_MOTOR_DIR and SET_VOLTAGE. -/
theorem witness_gates :
    (blockIn .idle [0, 0, 0, 0] 0).state = .idle ∧
      (driven .userControl [0, 0, 0, 0] 0).state = .userControl ∧
      (driven .starting [0, 0, 0, 0] 0).state ∉ [OperatingState.idle, .userControl] ∧
      (driven .openChip [0, 0, 0, 0] 0).state ∉ [OperatingState.idle, .userControl] ∧
      (driven .closeChip [0, 0, 0, 0] 0).state ∉ [OperatingState.idle, .userControl] := by decide

theorem witness_SetVoltageStoresClamped :
    (withValue State.reset (-1 / 10) 0).ports.val < 0 ∧
      0 ≤ (withValue State.reset 0 0).ports.val ∧ (withValue State.reset 12 0).ports.val ≤ 12 ∧
      12 < (withValue State.reset (121 / 10) 0).ports.val ∧
      filterAverage (blockIn .idle [4004, 0, 0, 0] 1) > Config.ex.maxCurrent ∧
      ∃ t, exec .setVoltage (blockIn .idle [4004, 0, 0, 0] 1) = .next t := by
  refine ⟨by decide +kernel, by decide +kernel, by decide +kernel, by decide +kernel, by decide,
    ⟨_, rfl⟩⟩

theorem witness_DcMotorSpeedStoresConvertedSpeed :
    Config.ex.wf = true ∧ 0 ≤ Config.ex.nominalVoltage ∧ Config.ex.nominalSpeed = 100 ∧
      Config.ex.nominalVoltage = 12 ∧ Config.ex.nominalSpeed ≤ 100 ∧
      { Config.ex with nominalVoltage := 24 }.nominalVoltage = 24 := by decide

theorem witness_commands_answer : ∀ i, ∃ t, exec i State.reset = .next t := by
  intro i
  cases i <;> exact ⟨_, rfl⟩

theorem witness_filter_form :
    Memory.wf (blockIn .idle [3, -1, 2, 7] 3) = true ∧
      Memory.wf { State.reset with cfg := { Config.ex with n := 1 }, buf := [9] } = true ∧
      [7, 2, -1, 3].Perm (blockIn .idle [3, -1, 2, 7] 3).buf ∧
      ∀ v ∈ (blockIn .idle [3, -1, 2, 7] 3).buf, -1 ≤ v ∧ v ≤ 7 := by decide

theorem witness_QuotientRoundsTowardZero : 1 ≤ Config.ex.n ∧ (0 : Int) ≤ 0 := by decide

theorem witness_MovingAverageLaw :
    Memory.wf State.reset = true ∧
      (∀ k, k < State.reset.cfg.n → readSlot State.reset k = some 0) ∧
      [1, 2, 3].length < State.reset.cfg.n ∧ State.reset.cfg.n ≤ [1, 2, 3, 4].length := by decide

theorem witness_InterlockStopsTheMotor :
    (atPorts (driven .closeChip [0, 0, 0, 0] 0) 4004 0).state ≠ .starting ∧
      filterAverage (sampleStep (atPorts (driven .closeChip [0, 0, 0, 0] 0) 4004 0)) >
        Config.ex.maxCurrent ∧
      ¬ filterAverage (sampleStep (atPorts (driven .closeChip [0, 0, 0, 0] 0) 4003 0)) >
        Config.ex.maxCurrent := by decide

theorem witness_branches_at_max_current :
    filterAverage (blockIn .idle [4003, 0, 0, 0] 1) ≤ Config.ex.maxCurrent ∧
      filterAverage (sampleStep (atPorts (driven .userControl [0, 0, 0, 0] 0) 4003 0)) ≤
        Config.ex.maxCurrent := by decide

theorem witness_StartingBranchIsTimed :
    (driven .starting [0, 0, 0, 0] 0).state = .starting ∧
      (atPorts (driven .starting [0, 0, 0, 0] 0) 0 101).ports.tl - 0 > Config.ex.startingTime ∧
      (atPorts (driven .starting [0, 0, 0, 0] 0) 0 100).ports.tl - 0 ≤ Config.ex.startingTime ∧
      (driven .starting [0, 0, 0, 0] 0).ports.tl =
        (driven .starting [0, 0, 0, 0] 0).phaseStartTime := by decide

theorem witness_OpenChipBranchStopsWhenSeated :
    filterAverage (sampleStep (atPorts (driven .openChip [0, 0, 0, 0] 0) 2404 0)) = 601 ∧
      filterAverage (sampleStep (atPorts (driven .openChip [0, 0, 0, 0] 0) 2400 0)) = 600 ∧
      filterAverage (sampleStep (atPorts (driven .openChip [0, 0, 0, 0] 0) 4003 0)) = 1000 ∧
      Config.ex.downThreshold = 600 ∧ Config.ex.maxCurrent = 1000 := by decide

theorem witness_CloseChipBranchStopsAtTorque :
    filterAverage (sampleStep (atPorts (driven .closeChip [0, 0, 0, 0] 0) 2004 0)) = 501 ∧
      filterAverage (sampleStep (atPorts (driven .closeChip [0, 0, 0, 0] 0) 2000 0)) = 500 ∧
      Config.ex.upThreshold = 500 := by decide

theorem witness_LoopWritesItsFieldsOnly :
    (loop (driven .userControl [0, 0, 0, 0] 0)).state ≠ .idle ∧
      (driven .starting [0, 0, 0, 0] 0).state = .starting := by decide

theorem witness_NoOtherTransition :
    (loop (atPorts (driven .starting [0, 0, 0, 0] 0) 0 101)).state ≠ .starting ∧
      (loop (atPorts (driven .starting [0, 0, 0, 0] 0) 0 101)).state ≠ .idle := by decide

theorem witness_SignalMapDrivesOrBrakes :
    (0 : ℚ) ≤ 0 ∧ (12 : ℚ) ≤ 12 ∧ Config.ex.fullScale = 255 := by decide

theorem witness_EmissionsPerTick : ∃ l u,
    fetch { blockIn .idle [4004, 0, 0, 0] 1 with supplied := [portTick 0x01 0 0 0] } = .next l ∧
      exec (decode l.ports.w) l = .next u ∧ decode l.ports.w = .dcStop ∧ u.state = .idle ∧
      filterAverage u > u.cfg.maxCurrent :=
  ⟨_, _, rfl, rfl, by decide, by decide, by decide⟩

/-- A driven block whose registers already hold the signal it would emit. -/
theorem witness_OutputsHoldTheLastEmission :
    signalMap Config.ex true .downward 6 = ⟨0, 0, 127⟩ ∧
      (driven .userControl [0, 0, 0, 0] 0).outputs = ⟨0, 0, 127⟩ ∧
      (emit (driven .userControl [0, 0, 0, 0] 0)).emissions = [⟨0, 0, 127⟩] := by decide +kernel

/-- Both a tick of the invariant that goes on driving and one that stays disabled. -/
theorem witness_steps_from_the_invariant :
    (∃ t, step { driven .starting [4004, 0, 0, 0] 1 with
        supplied := [portTick 0x00 0 50 0] } = .next t) ∧
      ∃ t, step ((blockIn .idle [4004, 0, 0, 0] 1).withFetchWord 8 0x00) = .next t ∧
        t.enabled = false := ⟨⟨_, rfl⟩, ⟨_, rfl, by decide⟩⟩

theorem witness_StepRunsTheDecodedInstruction :
    State.reset.cfg.wf = true ∧ Memory.wf State.reset = true ∧
      HostDutiesMet { State.reset with supplied := [portTick 0x13 0 5 (-5000)] } ∧
      (nextInput { State.reset with supplied := [portTick 0x13 0 5 (-5000)] }).instr =
        .dcMotorDir .upward := by
  refine ⟨by decide, by decide, ⟨by decide, by decide⟩, by decide⟩

theorem witness_BadConfigurationIsRefused :
    { State.reset with cfg := { Config.ex with n := 0 } }.cfg.wf = false := by decide

/-- Inputs that break each host duty, next to ones that just meet it. -/
theorem witness_StepStopsOnlyOnBrokenDuties :
    step { State.reset with supplied := [⟨.port 0 0, 5, 0, 4⟩] } = .refused .clockRunsBack ∧
      step { State.reset with supplied := [portTick 0 0 0 5001] } = .refused .sampleOutOfRange ∧
      (∃ t, step { State.reset with supplied := [⟨.port 0 0, 5, 5000, 5⟩] } = .next t) :=
  ⟨rfl, rfl, ⟨_, rfl⟩⟩

theorem witness_filterShape_faults :
    step { State.reset with cursor := 4, supplied := [portTick 0 0 0 0] } = .fault .filterShape :=
  rfl

theorem witness_BlockNeverStopsStepping :
    BlockInv { blockIn .idle [4004, 0, 0, 0] 1 with
        supplied := [portTick 0x05 0 0 0, portTick 0x00 0 0 5000, portTick 0x00 0 7 0] } ∧
      DutiesAlong Config.ex 0 [portTick 0x05 0 0 0, portTick 0x00 0 0 5000, portTick 0x00 0 7 0] ∧
      DutiesAlong Config.ex 0 [] := by
  refine ⟨inv_with_supplied inv_stale_idle _, ?_⟩
  unfold DutiesAlong DutiesAlong DutiesAlong DutiesAlong
  decide

theorem witness_SettleWindowRuns :
    BlockInv { driven .starting [4004, 0, 0, 0] 1 with
        supplied := [portTick 0x00 0 50 5000, portTick 0x08 0 100 0] ++
          portTick 0x00 0 101 0 :: [] } ∧
      (driven .starting [4004, 0, 0, 0] 1).state = .starting ∧
      DutiesAlong Config.ex 0 [portTick 0x00 0 50 5000, portTick 0x08 0 100 0,
        portTick 0x00 0 101 0] ∧
      (portTick 0x00 0 50 5000).instr = .nop ∧ (portTick 0x08 0 100 0).instr = .nop ∧
      (portTick 0x08 0 100 0).tl ≤ 0 + Config.ex.startingTime ∧
      0 + Config.ex.startingTime < (portTick 0x00 0 101 0).tl := by
  refine ⟨inv_with_supplied inv_driven_starting _, ?_⟩
  unfold DutiesAlong DutiesAlong DutiesAlong DutiesAlong
  decide

theorem witness_CommandActsBeforeTheLoop :
    (driven .userControl [0, 0, 0, 0] 0).cfg.wf = true ∧
      Memory.wf (driven .userControl [0, 0, 0, 0] 0) = true ∧
      HostDutiesMet { driven .userControl [0, 0, 0, 0] 0 with
        supplied := [⟨.port 0x05 0, 10, 5000, 110⟩] } ∧
      HostDutiesMet { driven .userControl [0, 0, 0, 0] 0 with
        supplied := [⟨.port 0x06 0, 10, 5000, 111⟩] } ∧
      (⟨.port 0x05 0, 10, 5000, 110⟩ : TickInput).instr = .openChip ∧
      (⟨.port 0x06 0, 10, 5000, 111⟩ : TickInput).instr = .closeChip := by
  refine ⟨by decide, by decide, ⟨by decide, by decide⟩, ⟨by decide, by decide⟩, by decide,
    by decide⟩

/-- Also the premises of IdleLastsUntilACommandStarts. -/
theorem witness_StaleFilterRefiresTheInterlock :
    (blockIn .idle [4004, 0, 0, 0] 1).cfg.wf = true ∧
      Memory.wf (blockIn .idle [4004, 0, 0, 0] 1) = true ∧
      HostDutiesMet { blockIn .idle [4004, 0, 0, 0] 1 with supplied := [portTick 0x07 5 0 0] } ∧
      filterAverage (blockIn .idle [4004, 0, 0, 0] 1) > Config.ex.maxCurrent ∧
      (portTick 0x07 5 0 0).instr ∉ [Instr.dcStart, .openChip, .closeChip] := by
  refine ⟨by decide, by decide, ⟨by decide, by decide⟩, by decide, by decide⟩

/-- Each label of R201, detected where its rule says, on inputs that meet the premises together. -/
theorem witness_SafetyConditionsHaveTheirResponses :
    SafetyCondition.overcurrent ∈ loopConditions (blockIn .idle [4004, 0, 0, 0] 1) ∧
      SafetyCondition.invalidTransition ∈
        commandConditions (driven .starting [0, 0, 0, 0] 0) (portTick 0x02 0 0 0) ∧
      SafetyCondition.unrecognized ∈ commandConditions State.reset (portTick 0x08 0 0 0) ∧
      SafetyCondition.unrecognized ∈
        commandConditions State.reset ⟨.text (ascii ['D', 'C', '-']), 0, 0, 0⟩ ∧
      State.reset.cfg.wf = true ∧
      (∀ val ∈ [(-1 : ℚ), 13],
        (withValue State.reset val 0).ports.val = (portTick 0x07 val 0 0).cmd.resolve.2 ∧
          SafetyCondition.outOfRange ∈
            commandConditions (withValue State.reset val 0) (portTick 0x07 val 0 0)) ∧
      ∀ val ∈ [(-1 : ℚ), 101],
        (withValue State.reset val 0).ports.val = (portTick 0x04 val 0 0).cmd.resolve.2 ∧
          SafetyCondition.outOfRange ∈
            commandConditions (withValue State.reset val 0) (portTick 0x04 val 0 0) := by
  decide +kernel

/-- The ends of each range carry no label, and a gated command in USER_CONTROL none. -/
theorem witness_no_condition_at_the_ends :
    loopConditions (blockIn .idle [4000, 0, 0, 0] 1) = [] ∧
      loopConditions (driven .starting [4004, 0, 0, 0] 1) = [] ∧
      commandConditions (driven .userControl [0, 0, 0, 0] 0) (portTick 0x02 0 0 0) = [] ∧
      commandConditions State.reset (portTick 0x00 0 0 0) = [] ∧
      (∀ val ∈ [(0 : ℚ), 12], commandConditions State.reset (portTick 0x07 val 0 0) = []) ∧
      ∀ val ∈ [(0 : ℚ), 100], commandConditions State.reset (portTick 0x04 val 0 0) = [] := by
  decide +kernel

theorem witness_hidden_fields :
    (driven .openChip [0, 0, 0, 0] 0).state ≠ .starting ∧
      (driven .openChip [0, 0, 0, 0] 0).buf = List.replicate Config.ex.n 0 ∧ 3 < Config.ex.n := by
  decide

end Sys2Proof.Tests
end

section
/-! PROOFS of the scope's statements (00_scope): the configuration constraints of R9, and what a
tick does where one of them is broken. -/

namespace Sys2Proof

/-- The check of a configuration, as the six constraints in the order of 00_scope R9. -/
theorem Config.wf_iff (c : Config) :
    c.wf = true ↔
      c.downThreshold < c.maxCurrent ∧ c.upThreshold < c.maxCurrent ∧ 1 ≤ c.n ∧
        0 < c.nominalSpeed ∧ 1 ≤ c.fullScale ∧ c.rawMin ≤ c.rawMax := by
  simp only [Config.wf, Bool.and_eq_true, decide_eq_true_eq]
  constructor
  · rintro ⟨⟨⟨⟨⟨hn, hspeed⟩, hscale⟩, hraw⟩, hdown⟩, hup⟩
    exact ⟨hdown, hup, hn, hspeed, hscale, hraw⟩
  · rintro ⟨hdown, hup, hn, hspeed, hscale, hraw⟩
    exact ⟨⟨⟨⟨⟨hn, hspeed⟩, hscale⟩, hraw⟩, hdown⟩, hup⟩

namespace Machine

/-- The configuration is judged first: neither the filter nor the input is looked at. -/
theorem fetch_of_bad_configuration {s : State} (h : s.cfg.wf = false) :
    fetch s = .refused .badConfiguration := if_pos h

/-- A tick that cannot start is refused for the reason its start gives; no command is applied. -/
theorem step_of_fetch_refused {s : State} {r : Refusal} (h : fetch s = .refused r) :
    step s = .refused r := by
  simp only [step, h]

/-- Settles O45: the check is the conjunction of the six constraints, and it stands first in a
tick. -/
theorem badConfigurationIsRefused : Obligations.BadConfigurationIsRefused :=
  ⟨Config.wf_iff, fun _ h => step_of_fetch_refused (fetch_of_bad_configuration h)⟩

end Machine
end Sys2Proof
end

section
/-! PROOFS of the state's statements (10_state): what a command and a loop can do, said once with
their guards; from that the frames of R21, the fixed configuration of R35, and the codes of R24 and
R26. -/

namespace Sys2Proof.Machine

/-! ## Commands -/

/-- Everything a command can do (41_commands R120 to R129). The gated commands stand last: applied
where the state is settable, ignored elsewhere. -/
theorem exec_cases {i : Instr} {s t : State} (h : exec i s = .next t) :
    (i = .nop ∧ t = s) ∨
      (i = .dcStop ∧ t = emit (disable s)) ∨
      (i = .dcMotorSpeed ∧ t = { s with voltage := speedToVoltage s.cfg s.ports.val }) ∨
      (i = .openChip ∧ t = enterStarting
        { s with direction := .downward, voltage := speedToVoltage s.cfg s.cfg.downSpeed }
        .openChip s.ports.tc) ∨
      (i = .closeChip ∧ t = enterStarting
        { s with direction := .upward, voltage := speedToVoltage s.cfg s.cfg.upSpeed }
        .closeChip s.ports.tc) ∨
      (i = .dcStart ∧ s.state.settable = true ∧
        t = enterStarting s .userControl s.ports.tc) ∨
      (∃ d, i = .dcMotorDir d ∧ s.state.settable = true ∧ t = { s with direction := d }) ∨
      (i = .setVoltage ∧ s.state.settable = true ∧
        t = { s with voltage := clampVoltage s.ports.val }) ∨
      ((i = .dcStart ∨ (∃ d, i = .dcMotorDir d) ∨ i = .setVoltage) ∧
        s.state.settable = false ∧ t = s) := by
  cases i with
  | nop | dcStop | dcMotorSpeed | openChip | closeChip =>
    obtain rfl := Host.Outcome.next.inj h
    simp
  | dcStart | dcMotorDir _ | setVoltage =>
    obtain rfl := Host.Outcome.next.inj h
    cases hs : s.state.settable <;> simp

/-- Settles O16: in each case of `exec_cases` these fields are the old ones by definition. -/
theorem commandsLeaveTheFilterAlone : Obligations.CommandsLeaveTheFilterAlone := by
  intro i s t h
  obtain ⟨_, rfl⟩ | ⟨_, rfl⟩ | ⟨_, rfl⟩ | ⟨_, rfl⟩ | ⟨_, rfl⟩ | ⟨_, _, rfl⟩ | ⟨_, _, _, rfl⟩ |
    ⟨_, _, rfl⟩ | ⟨_, _, rfl⟩ := exec_cases h <;>
  exact ⟨fun _ => rfl, rfl, rfl, rfl, rfl, rfl⟩

/-- Settles O17: each case of `exec_cases` either keeps a field or is that of a command which the
rule's table names for it. The table names DC_MOTOR_DIR once per direction. -/
theorem commandsWriteTheirFieldsOnly : Obligations.CommandsWriteTheirFieldsOnly := by
  intro i s t h
  obtain ⟨rfl, rfl⟩ | ⟨rfl, rfl⟩ | ⟨rfl, rfl⟩ | ⟨rfl, rfl⟩ | ⟨rfl, rfl⟩ | ⟨rfl, _, rfl⟩ |
    ⟨_ | _, rfl, _, rfl⟩ | ⟨rfl, _, rfl⟩ | ⟨_, _, rfl⟩ := exec_cases h <;>
  simp

/-! ## The loop -/

@[simp] theorem sampleStep_enabled (s : State) : (sampleStep s).enabled = s.enabled := by
  rw [sampleStep_frame]
@[simp] theorem sampleStep_pendingState (s : State) :
    (sampleStep s).pendingState = s.pendingState := by
  rw [sampleStep_frame]
@[simp] theorem sampleStep_direction (s : State) : (sampleStep s).direction = s.direction := by
  rw [sampleStep_frame]
@[simp] theorem sampleStep_voltage (s : State) : (sampleStep s).voltage = s.voltage := by
  rw [sampleStep_frame]
@[simp] theorem sampleStep_phaseStartTime (s : State) :
    (sampleStep s).phaseStartTime = s.phaseStartTime := by
  rw [sampleStep_frame]
@[simp] theorem sampleStep_ticks (s : State) : (sampleStep s).ticks = s.ticks := by
  rw [sampleStep_frame]

/-- STARTING goes on, or ends in the pending state with the filter zeroed (42_tick R156). -/
theorem startingExit_cases (s : State) :
    (settled s s.ports.tl = false ∧ startingExit s = s) ∨
      (settled s s.ports.tl = true ∧
        startingExit s = { filterReset s with state := s.pendingState }) := by
  unfold startingExit
  cases settled s s.ports.tl <;> simp

/-- OPEN_CHIP goes on, or stops above DOWN_THRESHOLD (42_tick R157). -/
theorem openChipStop_cases (s : State) (current : Int) :
    (overDown s.cfg current = false ∧ openChipStop s current = s) ∨
      (overDown s.cfg current = true ∧ openChipStop s current = thresholdStop s) := by
  unfold openChipStop
  cases overDown s.cfg current <;> simp

/-- CLOSE_CHIP goes on, or stops above UP_THRESHOLD (42_tick R158). -/
theorem closeChipStop_cases (s : State) (current : Int) :
    (overUp s.cfg current = false ∧ closeChipStop s current = s) ∨
      (overUp s.cfg current = true ∧ closeChipStop s current = thresholdStop s) := by
  unfold closeChipStop
  cases overUp s.cfg current <;> simp

/-- The five results of a loop after its sampling: nothing more (IDLE), an emission, the exit from
STARTING, a stop by the interlock, and a stop at a threshold. -/
theorem loop_results (s : State) :
    (s.state = .idle ∧ loop s = sampleStep s) ∨
      (s.state ≠ .idle ∧ loop s = emit (sampleStep s)) ∨
      (s.state = .starting ∧
        loop s = emit { filterReset (sampleStep s) with state := s.pendingState }) ∨
      (s.state ≠ .starting ∧ loop s = emergencyStop (sampleStep s)) ∨
      ((s.state = .openChip ∨ s.state = .closeChip) ∧
        loop s = emit (thresholdStop (sampleStep s))) := by
  obtain ⟨hs, -, hl⟩ | ⟨-, hl⟩ := loop_cases s
  · exact .inr (.inr (.inr (.inl ⟨hs, hl⟩)))
  obtain ⟨hs, hb⟩ | ⟨hs, hb⟩ | ⟨hs, hb⟩ | ⟨hs, hb⟩ | ⟨hs, hb⟩ :=
    branch_cases (sampleStep s) (filterAverage (sampleStep s)) <;>
  rw [sampleStep_state] at hs <;> rw [hl, hb]
  · exact .inl ⟨hs, rfl⟩
  · exact .inr (.inl ⟨by simp [hs], rfl⟩)
  · obtain ⟨-, he⟩ | ⟨-, he⟩ := startingExit_cases (sampleStep s) <;> simp [hs, he]
  · obtain ⟨-, he⟩ | ⟨-, he⟩ := openChipStop_cases (sampleStep s)
      (filterAverage (sampleStep s)) <;> simp [hs, he]
  · obtain ⟨-, he⟩ | ⟨-, he⟩ := closeChipStop_cases (sampleStep s)
      (filterAverage (sampleStep s)) <;> simp [hs, he]

/-- Settles O33: of the five results of a loop only the two stops write `enabled` and `voltage`; a
stop ends in IDLE and does not begin in STARTING. -/
theorem loopWritesItsFieldsOnly : Obligations.LoopWritesItsFieldsOnly := by
  intro s
  obtain ⟨hs, hl⟩ | ⟨hs, hl⟩ | ⟨hs, hl⟩ | ⟨hs, hl⟩ | ⟨hs | hs, hl⟩ := loop_results s <;>
  simp [hs, hl]

@[simp] theorem loop_cfg (s : State) : (loop s).cfg = s.cfg := by
  obtain ⟨-, -, -, hcfg, -⟩ := loopWritesItsFieldsOnly s
  exact hcfg

/-! ## The tick -/

/-- A command does not write the constants. -/
theorem exec_cfg {i : Instr} {s t : State} (h : exec i s = .next t) : t.cfg = s.cfg := by
  obtain ⟨-, -, hcfg, -⟩ := commandsLeaveTheFilterAlone i s t h
  exact hcfg

/-- Settles O47: neither the latched input, nor the command, nor the loop writes the constants. -/
theorem configurationIsFixed : Obligations.ConfigurationIsFixed := by
  intro s t h
  obtain ⟨l, u, hf, he, rfl⟩ := step_eq_next.mp h
  obtain ⟨-, -, -, -, rfl⟩ := fetch_eq_next.mp hf
  calc (loop u).cfg = u.cfg := loop_cfg u
    _ = (latch s (nextInput s)).cfg := exec_cfg he
    _ = s.cfg := latch_cfg s _

/-! ## The codes -/

/-- A code shows exactly the state whose code it is (10_state R24). -/
theorem ofCode_eq_some_iff (b : BitVec 3) (st : OperatingState) :
    OperatingState.ofCode b = some st ↔ b = st.code := by
  cases st <;> revert b <;> decide

/-- Settles O41: the tables by definition, their agreement by `ofCode_eq_some_iff`. -/
theorem stateCodesAreTheTable : Obligations.StateCodesAreTheTable :=
  ⟨rfl, rfl, rfl, rfl, rfl, ofCode_eq_some_iff, rfl, rfl, rfl, rfl, rfl, fun _ => rfl⟩

end Sys2Proof.Machine
end

section
/-! PROOFS of the encoding's statements (30_encoding): the reserved words of R76, the text decoder
of R82 to R87 with the decimal grammar of R85, and the use of the value operand of R72. -/

namespace Sys2Proof

/-! ## Reserved words -/

/-- The word of every instruction is matched by its row (30_encoding R74). -/
theorem encode_inRow (i : Instr) : Laws.InRow.Statement i := by
  cases i with
  | dcMotorDir d => exact Laws.InRow.dcMotorDir d
  | nop | dcStop | dcStart | dcMotorSpeed | openChip | closeChip | setVoltage => rfl

/-- A word that is not reserved is the word of the instruction it decodes to; checked on each of the
256 words. -/
theorem encode_decode_of_not_reserved {w : CommandWord} (h : isReserved w = false) :
    encode (decode w) = w := by
  revert w
  decide

/-- A word that a row matches is not reserved. All rows but DC_MOTOR_DIR fix every bit. -/
theorem isReserved_of_matched {w : CommandWord} {i : Instr} (h : w &&& rowMask i = rowMatch i) :
    isReserved w = false := by
  cases i with
  | dcMotorDir d =>
    change w &&& 0xEF = 0x03 at h
    revert w
    decide
  | nop | dcStop | dcStart | dcMotorSpeed | openChip | closeChip | setVoltage =>
    obtain rfl := (BitVec.and_allOnes (x := w)).symm.trans h
    rfl

/-- The reserved words are those no row of the opcode map matches (30_encoding R76). -/
theorem unmatched_iff_isReserved (w : CommandWord) :
    (∀ i, w &&& rowMask i ≠ rowMatch i) ↔ isReserved w = true := by
  constructor
  · intro hrows
    by_contra hres
    have hw : encode (decode w) = w :=
      encode_decode_of_not_reserved (Bool.eq_false_iff.mpr hres)
    have hrow : encode (decode w) &&& rowMask (decode w) = rowMatch (decode w) := encode_inRow _
    rw [hw] at hrow
    exact hrows _ hrow
  · intro hres i hrow
    simp [isReserved_of_matched hrow] at hres

/-- The three ways of being reserved, as masks of the word (30_encoding R71, R76). -/
theorem isReserved_iff_masks (w : CommandWord) :
    isReserved w = true ↔
      8 ≤ (w &&& 0x0F).toNat ∨ w &&& 0xE0 ≠ 0 ∨ (w &&& 0x10 ≠ 0 ∧ w &&& 0x0F ≠ 0x03) := by
  revert w
  decide

/-- A reserved word has the meaning of NOP (30_encoding R76). -/
theorem decode_of_isReserved {w : CommandWord} (h : isReserved w = true) : decode w = .nop := by
  revert w
  decide

/-- Settles O2: a word is unmatched exactly where it is reserved, and NOP answers the state it is
given. -/
theorem reservedWordsAreNop : Obligations.ReservedWordsAreNop := by
  intro w
  refine ⟨(unmatched_iff_isReserved w).trans (isReserved_iff_masks w), fun hrows => ?_⟩
  have hnop : decode w = .nop := decode_of_isReserved ((unmatched_iff_isReserved w).mp hrows)
  exact ⟨hnop, fun s => by rw [hnop]; rfl⟩

/-! ## The text decoder -/

/-- There is no first separator exactly where there is none at all. -/
theorem splitFirst_eq_none_iff {sep : Byte} {m : List Byte} :
    splitFirst sep m = none ↔ sep ∉ m := by
  induction m with
  | nil => simp [splitFirst]
  | cons c cs ih =>
    by_cases hc : c = sep
    · simp [splitFirst, hc]
    · simp [splitFirst, hc, ih, Ne.symm hc]

/-- The split is at the first separator: the part before it holds none. -/
theorem splitFirst_eq_some_iff {sep : Byte} {m a b : List Byte} :
    splitFirst sep m = some (a, b) ↔ sep ∉ a ∧ m = a ++ sep :: b := by
  induction m generalizing a with
  | nil => simp [splitFirst]
  | cons c cs ih =>
    by_cases hc : c = sep
    · subst hc
      cases a with
      | nil => simp [splitFirst]
      | cons x xs => simp +contextual [splitFirst]
    · cases a with
      | nil => simp [splitFirst, hc]
      | cons x xs =>
        simp only [splitFirst, hc, if_false, Option.map_eq_some_iff, Prod.exists, Prod.mk.injEq,
          List.cons.injEq, List.cons_append, List.mem_cons, not_or]
        constructor
        · rintro ⟨a, b', hs, ⟨rfl, rfl⟩, rfl⟩
          obtain ⟨hmem, hcs⟩ := ih.mp hs
          exact ⟨⟨Ne.symm hc, hmem⟩, rfl, hcs⟩
        · rintro ⟨⟨-, hmem⟩, rfl, hcs⟩
          exact ⟨xs, b, ih.mpr ⟨hmem, hcs⟩, ⟨rfl, rfl⟩, rfl⟩

/-- A message without a dash selects nothing (30_encoding R83). -/
theorem textDecode_of_no_dash {m : List Byte} (h : dash ∉ m) : textDecode m = (0x00, 0) := by
  simp only [textDecode, splitFirst_eq_none_iff.mpr h]

/-- A message is read at its first dash (30_encoding R83). -/
theorem textDecode_append_dash {token : List Byte} (h : dash ∉ token) (value : List Byte) :
    textDecode (token ++ dash :: value) = tokenCommand token value := by
  simp only [textDecode, splitFirst_eq_some_iff.mpr ⟨h, rfl⟩]

@[simp] theorem tokenCommand_dcStop (v : List Byte) :
    tokenCommand tokenDcStop v = (0x01, 0) := rfl
@[simp] theorem tokenCommand_dcStart (v : List Byte) :
    tokenCommand tokenDcStart v = (0x02, 0) := rfl
@[simp] theorem tokenCommand_dcMotorDir (v : List Byte) :
    tokenCommand tokenDcMotorDir v =
      if v = [0x30] then (0x03, 0) else if v = [0x31] then (0x13, 0) else (0x00, 0) := rfl
@[simp] theorem tokenCommand_openChip (v : List Byte) :
    tokenCommand tokenOpenChip v = (0x05, 0) := rfl
@[simp] theorem tokenCommand_closeChip (v : List Byte) :
    tokenCommand tokenCloseChip v = (0x06, 0) := rfl

/-- DC_MOTOR_SPEED is none of the tokens that are compared before it. -/
theorem tokenDcMotorSpeed_ne_earlier :
    tokenDcMotorSpeed ≠ tokenDcStop ∧ tokenDcMotorSpeed ≠ tokenDcStart ∧
      tokenDcMotorSpeed ≠ tokenDcMotorDir := by decide

theorem tokenCommand_dcMotorSpeed_of_some {v : List Byte} {q : ℚ} (h : decimalValue v = some q) :
    tokenCommand tokenDcMotorSpeed v = (0x04, q) := by
  simp [tokenCommand, h, tokenDcMotorSpeed_ne_earlier]

theorem tokenCommand_dcMotorSpeed_of_none {v : List Byte} (h : decimalValue v = none) :
    tokenCommand tokenDcMotorSpeed v = (0x00, 0) := by
  simp [tokenCommand, h, tokenDcMotorSpeed_ne_earlier]

/-- The tokens of the text protocol (30_encoding R81). -/
def textTokens : List (List Byte) :=
  [tokenDcStop, tokenDcStart, tokenDcMotorDir, tokenDcMotorSpeed, tokenOpenChip, tokenCloseChip]

theorem mem_textTokens {token : List Byte} :
    token ∈ textTokens ↔
      token = tokenDcStop ∨ token = tokenDcStart ∨ token = tokenDcMotorDir ∨
        token = tokenDcMotorSpeed ∨ token = tokenOpenChip ∨ token = tokenCloseChip := by
  simp only [textTokens, List.mem_cons, List.not_mem_nil, or_false]

theorem tokenCommand_of_not_mem {token : List Byte} (v : List Byte) (h : token ∉ textTokens) :
    tokenCommand token v = (0x00, 0) := by
  simp only [mem_textTokens, not_or] at h
  simp only [tokenCommand, h, if_false]

/-- The words the text decoder can produce: NOP's and the text commands' (30_encoding R87). -/
def textWords : List CommandWord := [0x00, 0x01, 0x02, 0x03, 0x13, 0x04, 0x05, 0x06]

theorem tokenCommand_mem_textWords (token v : List Byte) :
    (tokenCommand token v).1 ∈ textWords := by
  by_cases h : token ∈ textTokens
  · obtain rfl | rfl | rfl | rfl | rfl | rfl := mem_textTokens.mp h
    · simp [textWords]
    · simp [textWords]
    · rw [tokenCommand_dcMotorDir]
      split_ifs <;> simp [textWords]
    · cases hv : decimalValue v with
      | none => simp [tokenCommand_dcMotorSpeed_of_none hv, textWords]
      | some q => simp [tokenCommand_dcMotorSpeed_of_some hv, textWords]
    · simp [textWords]
    · simp [textWords]
  · simp [tokenCommand_of_not_mem v h, textWords]

theorem textDecode_mem_textWords (m : List Byte) : (textDecode m).1 ∈ textWords := by
  cases hs : splitFirst dash m with
  | none => simp [textDecode, hs, textWords]
  | some p => simpa only [textDecode, hs] using tokenCommand_mem_textWords p.1 p.2

/-- The text words are neither SET_VOLTAGE's nor reserved. -/
theorem textWords_are_rows :
    ∀ w ∈ textWords, w ≠ 0x07 ∧ isReserved w = false := by decide

/-- Settles O4: a message is read at its first dash, then one equation of `tokenCommand` gives each
row of the table; the words it can answer are `textWords`. -/
theorem textDecoderFollowsItsTable : Obligations.TextDecoderFollowsItsTable := by
  refine ⟨by decide, rfl, fun m => textDecode_of_no_dash, fun token value hdash => ?_,
    fun m => textWords_are_rows _ (textDecode_mem_textWords m)⟩
  rw [textDecode_append_dash hdash]
  refine ⟨?_, ?_, ?_, ?_, ?_, ?_, tokenCommand_of_not_mem value⟩ <;> rintro rfl
  · exact tokenCommand_dcStop value
  · exact tokenCommand_dcStart value
  · simp +contextual
  · exact ⟨fun _ => tokenCommand_dcMotorSpeed_of_some, tokenCommand_dcMotorSpeed_of_none⟩
  · exact tokenCommand_openChip value
  · exact tokenCommand_closeChip value

/-! ## The decimal grammar -/

theorem isDigit_iff (c : Byte) : isDigit c = true ↔ 0x30 ≤ c.toNat ∧ c.toNat ≤ 0x39 := by
  rw [isDigit, Bool.and_eq_true, decide_eq_true_eq, decide_eq_true_eq]

theorem unsignedDecimal_of_no_point {v : List Byte} (h : point ∉ v) :
    unsignedDecimal v =
      if v ≠ [] ∧ v.all isDigit = true then some (digitsValue v : ℚ) else none := by
  simp only [unsignedDecimal, splitFirst_eq_none_iff.mpr h]

theorem unsignedDecimal_append_point {ip : List Byte} (h : point ∉ ip) (fp : List Byte) :
    unsignedDecimal (ip ++ point :: fp) =
      if ip ++ fp ≠ [] ∧ (ip ++ fp).all isDigit = true then
        some ((digitsValue (ip ++ fp) : ℚ) / 10 ^ fp.length)
      else none := by
  simp only [unsignedDecimal, splitFirst_eq_some_iff.mpr ⟨h, rfl⟩]

/-- `u` is written with the digits `ip` before and `fp` after the point, at least one in all. The
point may be missing where `fp` is empty (30_encoding R85, the part after the sign). -/
def UnsignedParts (ip fp u : List Byte) : Prop :=
  ip ++ fp ≠ [] ∧ (∀ c ∈ ip ++ fp, isDigit c = true) ∧
    ((fp = [] ∧ u = ip) ∨ u = ip ++ point :: fp)

/-- The parser without a sign accepts exactly what has such parts, and reads all the digits as one
number over a power of ten. -/
theorem unsignedDecimal_eq_some_iff {u : List Byte} {r : ℚ} :
    unsignedDecimal u = some r ↔
      ∃ ip fp, UnsignedParts ip fp u ∧ r = (digitsValue (ip ++ fp) : ℚ) / 10 ^ fp.length := by
  constructor
  · intro h
    cases hs : splitFirst point u with
    | none =>
      rw [unsignedDecimal_of_no_point (splitFirst_eq_none_iff.mp hs)] at h
      split_ifs at h with hd
      exact ⟨u, [], by simpa [UnsignedParts] using hd, by simpa using h.symm⟩
    | some p =>
      obtain ⟨ip, fp⟩ := p
      obtain ⟨hip, rfl⟩ := splitFirst_eq_some_iff.mp hs
      rw [unsignedDecimal_append_point hip] at h
      split_ifs at h with hd
      obtain ⟨hne, hall⟩ := hd
      exact ⟨ip, fp, ⟨hne, List.all_eq_true.mp hall, .inr rfl⟩, (Option.some.inj h).symm⟩
  · rintro ⟨ip, fp, ⟨hne, hdigits, hform⟩, rfl⟩
    have hpoint : point ∉ ip ++ fp := fun hp => absurd (hdigits point hp) (by decide)
    have hall : (ip ++ fp).all isDigit = true := List.all_eq_true.mpr hdigits
    obtain ⟨rfl, rfl⟩ | rfl := hform
    · rw [List.append_nil] at hne hpoint hall
      simp [unsignedDecimal_of_no_point hpoint, hne, hall]
    · rw [unsignedDecimal_append_point fun hip => hpoint (List.mem_append_left fp hip),
        if_pos ⟨hne, hall⟩]

/-- An unsigned decimal holds digits and points only, so no sign. -/
theorem not_sign_of_mem_unsignedDecimal {u : List Byte} {r : ℚ} {c : Byte}
    (h : unsignedDecimal u = some r) (hc : c ∈ u) : c ≠ dash ∧ c ≠ plus := by
  obtain ⟨ip, fp, ⟨-, hdigits, hform⟩, -⟩ := unsignedDecimal_eq_some_iff.mp h
  have hbyte : isDigit c = true ∨ c = point := by
    obtain ⟨rfl, rfl⟩ | rfl := hform
    · exact .inl (hdigits c (List.mem_append_left _ hc))
    · obtain hip | rfl | hfp := List.mem_append.mp hc |>.imp_right List.mem_cons.mp
      · exact .inl (hdigits c (List.mem_append_left _ hip))
      · exact .inr rfl
      · exact .inl (hdigits c (List.mem_append_right _ hfp))
  constructor <;> rintro rfl <;> revert hbyte <;> decide

/-- The parser takes an optional sign off an unsigned decimal, and negates its value at a minus. -/
theorem decimalValue_eq_some_iff {v : List Byte} {q : ℚ} :
    decimalValue v = some q ↔
      ∃ sign u r, (sign = [] ∨ sign = [plus] ∨ sign = [dash]) ∧ v = sign ++ u ∧
        unsignedDecimal u = some r ∧ q = (if sign = [dash] then -1 else 1) * r := by
  constructor
  · intro h
    cases v with
    | nil => cases h
    | cons c cs =>
      simp only [decimalValue] at h
      split_ifs at h with hd hp
      · obtain ⟨r, hr, rfl⟩ := Option.map_eq_some_iff.mp h
        exact ⟨[dash], cs, r, by simp, by simp [hd], hr, by simp⟩
      · exact ⟨[plus], cs, q, by simp, by simp [hp], h, by simp [plus, dash]⟩
      · exact ⟨[], c :: cs, q, by simp, rfl, h, by simp⟩
  · rintro ⟨sign, u, r, hsign, rfl, hr, rfl⟩
    obtain rfl | rfl | rfl := hsign
    · cases u with
      | nil => cases hr
      | cons c cs =>
        obtain ⟨hd, hp⟩ := not_sign_of_mem_unsignedDecimal hr List.mem_cons_self
        simp [decimalValue, hd, hp, hr]
    · simp [decimalValue, hr, plus, dash]
    · simp [decimalValue, hr]

/-- The rule's alternatives (digits, then perhaps a point and digits; or a point and digits) are the
forms that have such parts. -/
theorem exists_unsignedParts_iff {sign ip fp v : List Byte} :
    (∃ u, v = sign ++ u ∧ UnsignedParts ip fp u) ↔
      (∀ c ∈ ip ++ fp, 0x30 ≤ c.toNat ∧ c.toNat ≤ 0x39) ∧
        ((ip ≠ [] ∧ ((fp = [] ∧ v = sign ++ ip) ∨ v = sign ++ ip ++ point :: fp)) ∨
          (ip = [] ∧ fp ≠ [] ∧ v = sign ++ point :: fp)) := by
  simp only [UnsignedParts, isDigit_iff]
  constructor
  · rintro ⟨u, rfl, hne, hdigits, hform⟩
    refine ⟨hdigits, ?_⟩
    obtain rfl | hip := eq_or_ne ip []
    · have hfp : fp ≠ [] := by simpa using hne
      have hu : u = point :: fp := by simpa [hfp] using hform
      exact .inr ⟨rfl, hfp, by rw [hu]⟩
    · exact .inl ⟨hip, by simpa using hform⟩
  · rintro ⟨hdigits, ⟨hip, ⟨rfl, rfl⟩ | rfl⟩ | ⟨rfl, hfp, rfl⟩⟩
    · exact ⟨ip, rfl, by simpa using hip, hdigits, .inl ⟨rfl, rfl⟩⟩
    · exact ⟨ip ++ point :: fp, by simp, by simp [hip], hdigits, .inr rfl⟩
    · exact ⟨point :: fp, rfl, by simpa using hfp, hdigits, .inr rfl⟩

/-- A speed value parses exactly where it matches the grammar of 30_encoding R85, to the rational it
denotes. -/
theorem decimalValue_eq_some_iff_grammar {v : List Byte} {q : ℚ} :
    decimalValue v = some q ↔
      ∃ sign ip fp : List Byte, (sign = [] ∨ sign = [plus] ∨ sign = [dash]) ∧
        (∃ u, v = sign ++ u ∧ UnsignedParts ip fp u) ∧
        q = (if sign = [dash] then -1 else 1) *
          ((digitsValue (ip ++ fp) : ℚ) / 10 ^ fp.length) := by
  rw [decimalValue_eq_some_iff]
  constructor
  · rintro ⟨sign, u, r, hsign, hv, hu, rfl⟩
    obtain ⟨ip, fp, hparts, rfl⟩ := unsignedDecimal_eq_some_iff.mp hu
    exact ⟨sign, ip, fp, hsign, ⟨u, hv, hparts⟩, rfl⟩
  · rintro ⟨sign, ip, fp, hsign, ⟨u, hv, hparts⟩, rfl⟩
    exact ⟨sign, u, _, hsign, hv, unsignedDecimal_eq_some_iff.mpr ⟨ip, fp, hparts, rfl⟩, rfl⟩

theorem digitsValue_append_digit (ds : List Byte) (c : Byte) :
    digitsValue (ds ++ [c]) = 10 * digitsValue ds + (c.toNat - 0x30) := by
  simp only [digitsValue, List.foldl_append, List.foldl_cons, List.foldl_nil]

/-- Settles O5: the grammar in terms of `UnsignedParts` is the rule's, and the message's value is
what the parser answers. -/
theorem speedValueGrammar : Obligations.SpeedValueGrammar := by
  refine ⟨fun v q => ?_, rfl, digitsValue_append_digit, fun v => ?_⟩
  · simp only [decimalValue_eq_some_iff_grammar, exists_unsignedParts_iff, and_assoc]
  · rw [textDecode_append_dash (by decide)]
    cases h : decimalValue v with
    | none => exact tokenCommand_dcMotorSpeed_of_none h
    | some q => exact tokenCommand_dcMotorSpeed_of_some h

end Sys2Proof

namespace Sys2Proof.Machine

/-! ## The value port -/

/-- A state with another value on its value port. -/
def State.withVal (s : State) (v : ℚ) : State := { s with ports := { s.ports with val := v } }

/-- A gate reads the operating state alone, so a gated update ignores the value where the update
does. -/
theorem gated_withVal {f : State → State} (hf : ∀ s v, f (s.withVal v) = (f s).withVal v)
    (s : State) (v : ℚ) :
    (if (s.withVal v).state.settable then f (s.withVal v) else s.withVal v) =
      (if s.state.settable then f s else s).withVal v := by
  rw [hf, apply_ite (State.withVal · v)]
  rfl

/-- A command other than DC_MOTOR_SPEED and SET_VOLTAGE answers, and does the same whatever stands
on the value port (30_encoding R72). -/
theorem exec_withVal {i : Instr} (hspeed : i ≠ .dcMotorSpeed) (hvoltage : i ≠ .setVoltage)
    (s : State) (v : ℚ) :
    ∃ t, exec i s = .next t ∧ exec i (s.withVal v) = .next (t.withVal v) := by
  cases i with
  | dcMotorSpeed => exact absurd rfl hspeed
  | setVoltage => exact absurd rfl hvoltage
  | nop | dcStop | openChip | closeChip => exact ⟨_, rfl, rfl⟩
  | dcStart =>
    exact ⟨_, rfl, congrArg Host.Outcome.next (gated_withVal
      (f := fun s => enterStarting s .userControl s.ports.tc) (fun _ _ => rfl) s v)⟩
  | dcMotorDir d =>
    exact ⟨_, rfl, congrArg Host.Outcome.next (gated_withVal
      (f := fun s => { s with direction := d }) (fun _ _ => rfl) s v)⟩

/-- Settles O18: the two commands that use the value store it by definition, SET_VOLTAGE where its
gate is open; every other one ignores it by `exec_withVal`. -/
theorem valueReadByTwoCommandsOnly : Obligations.ValueReadByTwoCommandsOnly := by
  refine ⟨by decide, fun s => rfl, fun s hs => ?_, fun i s v hspeed hvoltage =>
    exec_withVal hspeed hvoltage s v⟩
  simp [exec, execSetVoltage, hs, OperatingState.settable]

end Sys2Proof.Machine
end

section
/-! PROOFS of the filter's statements (40_filter): the quotient of R104, the comparators of R105,
the three operations on the slots (R100, R102, R103), the moving-average law they make up (R107),
and the invariant of the block, which holds the filter's form and range (R101) beside 10_state
R37. -/

namespace Sys2Proof.Machine

/-! ## The quotient (40_filter R104) -/

theorem tdivNat_of_nonneg {a : Int} (n : Nat) (h : 0 ≤ a) : tdivNat a n = a / n :=
  Int.tdiv_eq_ediv_of_nonneg h

theorem tdivNat_neg (a : Int) (n : Nat) : tdivNat (-a) n = -tdivNat a n := Int.neg_tdiv a n

theorem tdivNat_natCast (m n : Nat) : tdivNat (m : Int) n = ((m / n : Nat) : Int) := rfl

/-- The quotient of a natural number is 0 where its sign is. -/
theorem sign_mul_natCast_div (m n : Nat) :
    (m : Int).sign * ((m / n : Nat) : Int) = ((m / n : Nat) : Int) := by
  cases m with
  | zero => simp
  | succ m => rw [Int.sign_natCast_of_ne_zero m.succ_ne_zero, one_mul]

theorem tdivNat_eq_sign_mul (a : Int) (n : Nat) :
    tdivNat a n = a.sign * ((a.natAbs / n : Nat) : Int) := by
  obtain ⟨m, rfl | rfl⟩ := a.eq_nat_or_neg
  · rw [tdivNat_natCast, Int.natAbs_natCast, sign_mul_natCast_div]
  · rw [tdivNat_neg, tdivNat_natCast, Int.natAbs_neg, Int.natAbs_natCast, Int.sign_neg, neg_mul,
      sign_mul_natCast_div]

/-- Settles O22: the sign formula is `tdivNat_eq_sign_mul`; for a nonnegative dividend the quotient
is the integer one, which is the floor. -/
theorem quotientRoundsTowardZero : Obligations.QuotientRoundsTowardZero := by
  refine ⟨fun a n _ => ⟨tdivNat_eq_sign_mul a n, fun ha => ?_⟩, by decide⟩
  rw [tdivNat_of_nonneg n ha, Rat.floor_intCast_div_natCast]

/-! ## The comparators (40_filter R105) -/

theorem overMax_iff (c : Config) (current : Int) :
    overMax c current = true ↔ c.maxCurrent < current := decide_eq_true_iff

theorem overDown_iff (c : Config) (current : Int) :
    overDown c current = true ↔ c.downThreshold < current := decide_eq_true_iff

theorem overUp_iff (c : Config) (current : Int) :
    overUp c current = true ↔ c.upThreshold < current := decide_eq_true_iff

theorem interlockFires_iff (s : State) (current : Int) :
    interlockFires s current = true ↔ s.state ≠ .starting ∧ s.cfg.maxCurrent < current := by
  rw [interlockFires, Bool.and_eq_true, decide_eq_true_iff, overMax_iff]

/-- Settles O23: each comparator is the strict order, which no number has to itself. -/
theorem comparatorsAreStrict : Obligations.ComparatorsAreStrict := by
  intro c current
  exact ⟨overMax_iff c current, overDown_iff c current, overUp_iff c current,
    decide_eq_false (lt_irrefl _), decide_eq_false (lt_irrefl _), decide_eq_false (lt_irrefl _),
    fun s hs => hs ▸ interlockFires_iff s current⟩

/-! ## The three operations (40_filter R100, R102, R103) -/

/-- Settles O19: a sample is one slot write (`readSlot_writeSlot_same`, `readSlot_writeSlot_other`)
and one move of the cursor, which has nowhere to go in a single slot. -/
theorem filterSampleWritesOneSlot : Obligations.FilterSampleWritesOneSlot := by
  intro s raw h
  obtain ⟨hlen, hcur⟩ := (memory_wf_iff s).mp h
  refine ⟨readSlot_writeSlot_same s s.cursor raw (by omega),
    fun k hk => readSlot_writeSlot_other s s.cursor k raw hk.symm, rfl, fun hn => ?_, rfl⟩
  change (s.cursor + 1) % s.cfg.n = 0
  rw [hn, Nat.mod_one]

theorem readSlot_filterReset (s : State) (k : Nat) :
    readSlot (filterReset s) k = if k < s.cfg.n then some 0 else none :=
  List.getElem?_replicate

theorem filterAverage_filterReset (s : State) : filterAverage (filterReset s) = 0 := by
  simp [filterAverage, tdivNat]

/-- Settles O20: the buffer becomes N zeros whatever it was. -/
theorem filterResetZeroesEverySlot : Obligations.FilterResetZeroesEverySlot := fun s =>
  ⟨fun k hk => (readSlot_filterReset s k).trans (if_pos hk),
    fun k hk => (readSlot_filterReset s k).trans (if_neg hk.not_gt),
    rfl, rfl, rfl, filterAverage_filterReset s⟩

/-- The slots read in order, one by one, are the buffer. -/
theorem map_readSlot_range (s : State) :
    (List.range s.buf.length).map (fun k => (readSlot s k).getD 0) = s.buf := by
  refine List.ext_getElem (by simp) fun k _ hk => ?_
  simp [readSlot, hk]

/-- The mean reads the sum of the slots, so neither their order nor the cursor counts. -/
theorem filterAverage_of_perm {s : State} {l : List Int} (c : Nat) (h : l.Perm s.buf) :
    filterAverage { s with buf := l, cursor := c } = filterAverage s :=
  congrArg (tdivNat · s.cfg.n) h.sum_eq

/-- Settles O21: the N slots are the buffer (`map_readSlot_range`), and the mean is invariant under
permutations of it. -/
theorem filterAverageIsTheMeanOfAllSlots : Obligations.FilterAverageIsTheMeanOfAllSlots := by
  intro s h
  obtain ⟨hlen, -⟩ := (memory_wf_iff s).mp h
  refine ⟨?_, fun l c hl => filterAverage_of_perm c hl⟩
  rw [← hlen, map_readSlot_range, hlen]
  rfl

/-! ## The moving-average law (40_filter R107) -/

/-- The slots in the order in which they will be overwritten: the slot at the cursor, the oldest,
stands first. -/
def State.window (s : State) : List Int := s.buf.rotate s.cursor

theorem window_perm (s : State) : s.window.Perm s.buf := List.rotate_perm s.buf s.cursor

@[simp] theorem window_length (s : State) : s.window.length = s.buf.length := List.length_rotate ..

theorem filterAverage_eq_window (s : State) :
    filterAverage s = tdivNat s.window.sum s.cfg.n := by
  rw [(window_perm s).sum_eq]
  rfl

/-- A sample shifts the window: the oldest slot leaves it at the front, the sample enters at the
end. -/
theorem window_filterSample (s : State) (raw : Int) (h : Memory.wf s = true) :
    (filterSample s raw).window = s.window.tail ++ [raw] := by
  obtain ⟨hlen, hcur⟩ := (memory_wf_iff s).mp h
  have hc : s.cursor < s.buf.length := by omega
  have hnew : (filterSample s raw).window = (s.buf.set s.cursor raw).rotate (s.cursor + 1) := by
    rw [← List.rotate_mod _ (s.cursor + 1), List.length_set, hlen]
    rfl
  have hset : s.buf.set s.cursor raw =
      (s.buf.take s.cursor ++ [raw]) ++ s.buf.drop (s.cursor + 1) := by
    simp [List.set_eq_take_cons_drop raw hc]
  have hold : s.window = s.buf[s.cursor] :: (s.buf.drop (s.cursor + 1) ++ s.buf.take s.cursor) := by
    rw [State.window, List.rotate_eq_drop_append_take hc.le, List.drop_eq_getElem_cons hc,
      List.cons_append]
  have htake : (s.buf.take s.cursor ++ [raw]).length = s.cursor + 1 := by simp; omega
  have hrot := List.rotate_append_length_eq (s.buf.take s.cursor ++ [raw])
    (s.buf.drop (s.cursor + 1))
  rw [htake] at hrot
  rw [hnew, hset, hrot, hold, List.tail_cons, List.append_assoc]

theorem foldl_filterSample_cfg (xs : List Int) (s : State) :
    (xs.foldl filterSample s).cfg = s.cfg := by
  induction xs generalizing s with
  | nil => rfl
  | cons x xs ih => exact ih (filterSample s x)

/-- After a list of samples the window is the end of the old window followed by the samples. -/
theorem window_foldl_filterSample (xs : List Int) (s : State) (h : Memory.wf s = true) :
    (xs.foldl filterSample s).window = (s.window ++ xs).drop xs.length := by
  induction xs generalizing s with
  | nil => simp
  | cons x xs ih =>
    obtain ⟨hlen, hcur⟩ := (memory_wf_iff s).mp h
    obtain ⟨w, ws, hw⟩ := List.exists_cons_of_length_pos (l := s.window)
      (by rw [window_length]; omega)
    rw [List.foldl_cons, ih _ (filterSample_wf s x h), window_filterSample s x h, hw]
    simp

/-- A buffer of N slots that all read 0 is N zeros. -/
theorem buf_eq_replicate_of_zeroed {s : State} (h : Memory.wf s = true)
    (hz : ∀ k, k < s.cfg.n → readSlot s k = some 0) : s.buf = List.replicate s.cfg.n 0 := by
  obtain ⟨hlen, -⟩ := (memory_wf_iff s).mp h
  refine List.ext_getElem? fun k => ?_
  rw [List.getElem?_replicate]
  split_ifs with hk
  · exact hz k hk
  · exact List.getElem?_eq_none (by omega)

section Zeroed

variable {s : State} (hwf : Memory.wf s = true) (hz : ∀ k, k < s.cfg.n → readSlot s k = some 0)

include hwf hz

/-- From a zeroed buffer the average is the mean of the last N samples, of all of them while they
are fewer: the slots still in the window are zeros. -/
theorem filterAverage_foldl_of_zeroed (xs : List Int) :
    filterAverage (xs.foldl filterSample s) =
      tdivNat (xs.drop (xs.length - s.cfg.n)).sum s.cfg.n := by
  have hwin : s.window = List.replicate s.cfg.n 0 := by
    rw [State.window, buf_eq_replicate_of_zeroed hwf hz, List.rotate_replicate]
  rw [filterAverage_eq_window, window_foldl_filterSample xs s hwf, foldl_filterSample_cfg, hwin]
  simp [List.drop_append]

/-- After `k` equal samples the average is the mean of `min k N` of them. -/
theorem filterAverage_foldl_replicate {x : Int} (k : Nat) (hx : 0 ≤ x) :
    filterAverage ((List.replicate k x).foldl filterSample s) =
      (min k s.cfg.n : Nat) * x / s.cfg.n := by
  have hkept : k - (k - s.cfg.n) = min k s.cfg.n := by omega
  rw [filterAverage_foldl_of_zeroed hwf hz, List.length_replicate, List.drop_replicate, hkept,
    List.sum_replicate, nsmul_eq_mul, tdivNat_of_nonneg _ (by positivity)]

end Zeroed

/-- The mean of `j` samples `x` in N slots grows with `j`. -/
theorem mul_ediv_mono {x : Int} {i j n : Nat} (hx : 0 ≤ x) (hn : 0 < n) (hij : i ≤ j) :
    (i : Int) * x / n ≤ (j : Int) * x / n :=
  Int.ediv_le_ediv (by exact_mod_cast hn)
    (mul_le_mul_of_nonneg_right (by exact_mod_cast hij) hx)

theorem resetWith_zeroed (c : Config) :
    ∀ k, k < c.n → readSlot (State.resetWith c) k = some 0 := fun k hk => by
  simp [readSlot, State.resetWith, hk]

/-- Settles O25: the average is that of `filterAverage_foldl_of_zeroed`; for equal samples the
threshold facts are the monotonicity of the mean in the number of samples, whose greatest value,
at N samples, is the sample itself. -/
theorem movingAverageLaw : Obligations.MovingAverageLaw := by
  refine ⟨fun s hwf hz => ⟨fun xs => ⟨fun hlt => ?_, fun _ => ?_⟩, fun x k hx => ?_⟩,
    fun s hwf => ⟨filterReset_wf s hwf, fun k hk => (readSlot_filterReset s k).trans (if_pos hk)⟩,
    fun c hc => ⟨resetWith_wf c hc, resetWith_zeroed c⟩⟩
  · rw [filterAverage_foldl_of_zeroed hwf hz, Nat.sub_eq_zero_of_le hlt.le, List.drop_zero]
  · exact filterAverage_foldl_of_zeroed hwf hz xs
  · obtain ⟨-, hcur⟩ := (memory_wf_iff s).mp hwf
    have hn : 0 < s.cfg.n := by omega
    rw [filterAverage_foldl_replicate hwf hz k hx]
    refine ⟨rfl, fun T _ => ⟨fun hT => ⟨min k s.cfg.n, min_le_left _ _, min_le_right _ _, hT⟩,
      fun j hk hj hT => hT.trans_le (mul_ediv_mono hx hn (le_min hk hj)), fun hxT => ?_⟩⟩
    calc ((min k s.cfg.n : Nat) : Int) * x / s.cfg.n
        ≤ (s.cfg.n : Int) * x / s.cfg.n := mul_ediv_mono hx hn (min_le_right _ _)
      _ = x := Int.mul_ediv_cancel_left x (by exact_mod_cast hn.ne')
      _ ≤ T := hxT

/-! ## The invariant of the block (10_state R37, 40_filter R101)

Inside a tick the registers may lag behind the fields until the loop emits, so the commands and the
loop keep `TickInv`, which has no clause on the outputs; an emission restores that clause, and a
loop without one runs in IDLE, where the outputs never lag. -/

/-- The invariant between the latching of an input and the end of the tick: that of the block but
for the outputs, and the host's duties (70_reset_and_hazards R241) on the input at the ports. -/
structure TickInv (s : State) : Prop where
  config : s.cfg.wf = true
  filter : Memory.wf s = true
  slots : SlotsInRange s
  voltage : VoltageInRange s
  idle : IdleIffDisabled s
  pending : PendingLegal s
  phaseClock : s.phaseStartTime ≤ s.ports.tl
  commandClock : s.ports.tc ≤ s.ports.tl
  sample : s.cfg.rawMin ≤ s.ports.raw ∧ s.ports.raw ≤ s.cfg.rawMax

theorem TickInv.blockInv {s : State} (h : TickInv s) (hout : OutputsMatch s) : BlockInv s :=
  ⟨h.config, h.filter, h.slots, h.voltage, h.idle, h.pending, hout, h.phaseClock⟩

theorem signal_of_disabled {s : State} (h : s.enabled = false) : s.signal = disabledPattern := by
  simp [State.signal, signalMap, h]

/-! ### The start of the tick and its command -/

theorem fetch_tickInv {s t : State} (h : BlockInv s) (hf : fetch s = .next t) : TickInv t := by
  obtain ⟨-, -, hclock, hsample, rfl⟩ := fetch_eq_next.mp hf
  obtain ⟨htc, htl⟩ := (clockDuty_iff s _).mp hclock
  exact ⟨h.config, h.filter, h.slots, h.voltage, h.idle, h.pending,
    (h.clock.trans htc).trans htl, htl, (sampleDuty_iff s _).mp hsample⟩

theorem fetch_outputsMatch {s t : State} (h : BlockInv s) (hf : fetch s = .next t) :
    OutputsMatch t := by
  obtain ⟨-, -, -, -, rfl⟩ := fetch_eq_next.mp hf
  exact h.outputs

theorem TickInv.emit {s : State} (h : TickInv s) : TickInv (emit s) := { h with }

theorem TickInv.disable {s : State} (h : TickInv s) : TickInv (disable s) :=
  { h with
    voltage := ⟨le_rfl, vMax_nonneg⟩
    idle := iff_of_true rfl rfl
    pending := ⟨h.pending.1, fun hs => absurd rfl hs⟩ }

theorem TickInv.setDrive {s : State} (h : TickInv s) (d : Direction) {v : ℚ}
    (hv : 0 ≤ v ∧ v ≤ vMax) : TickInv { s with direction := d, voltage := v } :=
  { h with voltage := hv }

theorem TickInv.enterStarting {s : State} (h : TickInv s) {next : OperatingState}
    (hs : next ≠ .starting) (hi : next ≠ .idle) : TickInv (enterStarting s next s.ports.tc) :=
  { h with
    idle := iff_of_false (by simp) (by simp)
    pending := ⟨hs, fun _ => hi⟩
    phaseClock := h.commandClock }

theorem exec_tickInv {i : Instr} {s t : State} (h : TickInv s) (he : exec i s = .next t) :
    TickInv t := by
  obtain ⟨-, rfl⟩ | ⟨-, rfl⟩ | ⟨-, rfl⟩ | ⟨-, rfl⟩ | ⟨-, rfl⟩ | ⟨-, -, rfl⟩ | ⟨d, -, -, rfl⟩ |
    ⟨-, -, rfl⟩ | ⟨-, -, rfl⟩ := exec_cases he
  · exact h
  · exact h.disable.emit
  · exact h.setDrive s.direction (speedToVoltage_mem _ _)
  · exact (h.setDrive _ (speedToVoltage_mem _ _)).enterStarting (by decide) (by decide)
  · exact (h.setDrive _ (speedToVoltage_mem _ _)).enterStarting (by decide) (by decide)
  · exact h.enterStarting (by decide) (by decide)
  · exact h.setDrive d h.voltage
  · exact h.setDrive s.direction (clampVoltage_mem _)
  · exact h

/-- In IDLE the registers stay in step under any update that keeps them and the enable: a disabled
motor has one pattern, whatever its direction and voltage. -/
theorem outputsMatch_of_idle {s u : State} (h : TickInv s) (hout : OutputsMatch s)
    (hs : s.state = .idle) (hen : u.enabled = s.enabled) (ho : u.outputs = s.outputs) :
    OutputsMatch u := by
  have hdis : s.enabled = false := h.idle.mp hs
  rw [OutputsMatch, ho, hout, signal_of_disabled hdis, signal_of_disabled (hen.trans hdis)]

/-- A command that ends in IDLE is DC_STOP, which emits, or was applied in IDLE and keeps the
enable. -/
theorem exec_idle_outputsMatch {i : Instr} {s t : State} (h : TickInv s) (hout : OutputsMatch s)
    (he : exec i s = .next t) (ht : t.state = .idle) : OutputsMatch t := by
  obtain ⟨-, rfl⟩ | ⟨-, rfl⟩ | ⟨-, rfl⟩ | ⟨-, rfl⟩ | ⟨-, rfl⟩ | ⟨-, -, rfl⟩ | ⟨d, -, -, rfl⟩ |
    ⟨-, -, rfl⟩ | ⟨-, -, rfl⟩ := exec_cases he
  · exact hout
  · rfl
  · exact outputsMatch_of_idle h hout ht rfl rfl
  · cases ht
  · cases ht
  · cases ht
  · exact outputsMatch_of_idle h hout ht rfl rfl
  · exact outputsMatch_of_idle h hout ht rfl rfl
  · exact hout

/-! ### The loop -/

theorem emit_blockInv {s : State} (h : TickInv s) : BlockInv (emit s) := h.emit.blockInv rfl

theorem TickInv.filterReset {s : State} (h : TickInv s) : TickInv (filterReset s) :=
  { h with
    filter := filterReset_wf s h.filter
    slots := fun _ hv => .inl (List.eq_of_mem_replicate hv) }

theorem TickInv.filterSample {s : State} (h : TickInv s) :
    TickInv (filterSample s s.ports.raw) :=
  { h with
    filter := filterSample_wf s _ h.filter
    slots := fun v hv => (List.mem_or_eq_of_mem_set hv).elim (h.slots v)
      fun hraw => .inr (hraw ▸ h.sample) }

theorem TickInv.sampleStep {s : State} (h : TickInv s) : TickInv (sampleStep s) := by
  cases hs : s.state.samples with
  | true =>
    rw [sampleStep_of_samples hs]
    exact h.filterSample
  | false =>
    rw [sampleStep_of_not hs]
    exact h

/-- The end of a phase: the pending state is neither STARTING nor IDLE, and the motor is on. -/
theorem TickInv.enterPending {s : State} (h : TickInv s) (hs : s.state = .starting) :
    TickInv { s with state := s.pendingState } := by
  have hstate : s.state ≠ .idle := by simp [hs]
  have hpending : s.pendingState ≠ .idle := h.pending.2 hstate
  exact
    { h with
      idle := iff_of_false hpending fun hen => hstate (h.idle.mpr hen)
      pending := ⟨h.pending.1, fun _ => hpending⟩ }

/-- Four of the five results of a loop end in an emission; the fifth is a loop in IDLE, which does
not sample. -/
theorem loop_blockInv {s : State} (h : TickInv s) (hout : s.state = .idle → OutputsMatch s) :
    BlockInv (loop s) := by
  obtain ⟨hs, hl⟩ | ⟨-, hl⟩ | ⟨hs, hl⟩ | ⟨-, hl⟩ | ⟨-, hl⟩ := loop_results s <;> rw [hl]
  · rw [sampleStep_of_not (by rw [hs]; rfl)]
    exact h.blockInv (hout hs)
  · exact emit_blockInv h.sampleStep
  · rw [← sampleStep_pendingState]
    exact emit_blockInv (h.sampleStep.filterReset.enterPending ((sampleStep_state s).trans hs))
  · exact emit_blockInv h.sampleStep.disable
  · exact emit_blockInv h.sampleStep.disable.filterReset

/-- Settles O43: the input is latched in `TickInv`, the command keeps it, and the loop ends in the
invariant of the block. -/
theorem stepKeepsTheInvariant : Obligations.StepKeepsTheInvariant := by
  intro s t h hstep
  obtain ⟨l, u, hf, he, rfl⟩ := step_eq_next.mp hstep
  have hl : TickInv l := fetch_tickInv h hf
  exact loop_blockInv (exec_tickInv hl he)
    (exec_idle_outputsMatch hl (fetch_outputsMatch h hf) he)

end Sys2Proof.Machine
end

section
/-! PROOFS of the commands' statements (41_commands): the gate of R121, R123 and R124, what the
gated commands do on either side of it, the conversion of a speed (R126), and the gate table of
R129. -/

namespace Sys2Proof.Machine

/-! ## The gate -/

theorem settable_iff (st : OperatingState) :
    st.settable = true ↔ st = .idle ∨ st = .userControl := by
  cases st <;> decide

theorem settable_eq_false {st : OperatingState} (hidle : st ≠ .idle) (huser : st ≠ .userControl) :
    st.settable = false :=
  Bool.eq_false_iff.mpr fun h => ((settable_iff st).mp h).elim hidle huser

theorem mem_idle_userControl_iff (st : OperatingState) :
    st ∈ [OperatingState.idle, .userControl] ↔ st.settable = true := by
  simp [settable_iff]

/-- The commands with a state gate (41_commands R129). -/
def Gated (i : Instr) : Prop := i = .dcStart ∨ (∃ d, i = .dcMotorDir d) ∨ i = .setVoltage

section Gate
variable {s : State}

theorem exec_of_gated {i : Instr} (hi : Gated i) (hs : s.state.settable = false) :
    exec i s = .next s := by
  obtain rfl | ⟨d, rfl⟩ | rfl := hi
  · simp [exec, execDcStart, hs]
  · simp [exec, execDcMotorDir, hs]
  · simp [exec, execSetVoltage, hs]

theorem exec_dcStart_of_settable (hs : s.state.settable = true) :
    exec .dcStart s = .next (enterStarting s .userControl s.ports.tc) := by
  simp [exec, execDcStart, hs]

theorem exec_dcMotorDir_of_settable (d : Direction) (hs : s.state.settable = true) :
    exec (.dcMotorDir d) s = .next { s with direction := d } := by
  simp [exec, execDcMotorDir, hs]

theorem exec_setVoltage_of_settable (hs : s.state.settable = true) :
    exec .setVoltage s = .next { s with voltage := clampVoltage s.ports.val } := by
  simp [exec, execSetVoltage, hs]

end Gate

/-! ## The gate table -/

/-- Every command answers a next state in every state. -/
theorem exec_total (i : Instr) (s : State) : ∃ t, exec i s = .next t := by
  cases i <;> exact ⟨_, rfl⟩

/-- Settles O15: a command answers by `exec_total`, and each case of `exec_cases` is one row of the
table, the ignored commands together. -/
theorem gateTableHolds : Obligations.GateTableHolds := by
  intro i s
  obtain ⟨t, ht⟩ := exec_total i s
  refine ⟨t, ht, ?_⟩
  simp only [mem_idle_userControl_iff]
  obtain ⟨rfl, rfl⟩ | ⟨rfl, rfl⟩ | ⟨rfl, rfl⟩ | ⟨rfl, rfl⟩ | ⟨rfl, rfl⟩ | ⟨rfl, hs, rfl⟩ |
    ⟨d, rfl, hs, rfl⟩ | ⟨rfl, hs, rfl⟩ | ⟨hgated, hs, rfl⟩ := exec_cases ht
  · simp
  · simp [disabledPattern]
  · simp
  · simp
  · simp
  · simp [hs]
  · simp [hs]
  · simp [hs]
  · obtain rfl | ⟨d, rfl⟩ | rfl := hgated <;> simp [hs]

/-! ## NOP, DC_START, DC_STOP and DC_MOTOR_DIR -/

/-- A tick whose word means NOP is its loop alone (41_commands R120). -/
theorem step_of_nop {s l : State} (hf : fetch s = .next l) (hw : decode l.ports.w = .nop) :
    step s = .next (loop l) :=
  step_eq_next.mpr ⟨l, l, hf, by rw [hw]; rfl, rfl⟩

/-- Settles O7: word 0x00 and the reserved words decode to NOP, and `step_of_nop` is the tick. -/
theorem nopChangesNothing : Obligations.NopChangesNothing := by
  refine ⟨rfl, ?_, fun m hm => congrArg decode hm, fun s => rfl, fun s l => step_of_nop⟩
  rintro w (rfl | hw)
  · rfl
  · exact decode_of_isReserved hw

/-- Settles O8: the two sides of the gate. -/
theorem dcStartEntersStarting : Obligations.DcStartEntersStarting :=
  ⟨rfl, fun s => ⟨fun hs => exec_dcStart_of_settable ((settable_iff s.state).mpr hs),
    fun hidle huser => exec_of_gated (.inl rfl) (settable_eq_false hidle huser)⟩⟩

/-- A second DC_STOP only records one more event: the first left the fields it writes as it would
write them. -/
theorem emit_disable_again (s : State) :
    emit (disable (emit (disable s))) =
      { emit (disable s) with
        emissions := (emit (disable s)).emissions ++ [disabledPattern] } := rfl

/-- Settles O9: DC_STOP is `emit (disable s)`, and the disabled motor's pattern is (0, 1, 0). -/
theorem dcStopDisablesAndEmits : Obligations.DcStopDisablesAndEmits :=
  ⟨rfl, fun s => ⟨emit (disable s), rfl, rfl, congrArg Host.Outcome.next (emit_disable_again s)⟩⟩

/-- Settles O10: the two sides of the gate. -/
theorem dcMotorDirSetsDirection : Obligations.DcMotorDirSetsDirection :=
  ⟨rfl, rfl, fun d s =>
    ⟨fun hs => exec_dcMotorDir_of_settable d ((settable_iff s.state).mpr hs),
      fun hidle huser => exec_of_gated (.inr (.inl ⟨d, rfl⟩)) (settable_eq_false hidle huser)⟩⟩

/-! ## SET_VOLTAGE -/

/-- The interlock outside STARTING: the loop is its sampling and the emergency stop
(42_tick R153). -/
theorem loop_of_overcurrent {s : State} (hs : s.state ≠ .starting)
    (hover : s.cfg.maxCurrent < filterAverage (sampleStep s)) :
    loop s = emergencyStop (sampleStep s) := by
  obtain ⟨-, -, hl⟩ | ⟨hs' | hle, -⟩ := loop_cases s
  · exact hl
  · exact absurd hs' hs
  · exact absurd hover hle.not_gt

/-- In IDLE the average is not of a new sample, so the interlock sees the one before the loop. -/
theorem loop_voltage_of_idle_overcurrent {s : State} (hs : s.state = .idle)
    (hover : s.cfg.maxCurrent < filterAverage s) : (loop s).voltage = 0 := by
  have hsample : sampleStep s = s := sampleStep_of_not (by rw [hs]; rfl)
  rw [loop_of_overcurrent (by simp [hs]) (by rwa [hsample])]
  rfl

section ClampVoltage
variable {v : ℚ}

theorem clampVoltage_of_nonpos (h : v ≤ 0) : clampVoltage v = 0 := clamp_of_le vMax_nonneg h

theorem clampVoltage_of_mem (h₁ : 0 ≤ v) (h₂ : v ≤ 12) : clampVoltage v = v := clamp_of_mem h₁ h₂

theorem clampVoltage_of_ge (h : 12 ≤ v) : clampVoltage v = 12 := clamp_of_ge vMax_nonneg h

theorem clampVoltage_of_nonneg (h : 0 ≤ v) : clampVoltage v = min 12 v := by
  rw [clampVoltage, clamp, max_eq_right h, vMax]

end ClampVoltage

/-- Settles O11: the gate, the three ranges of the clamp, and in IDLE the interlock, which reads
neither the voltage nor a new sample. -/
theorem setVoltageStoresClamped : Obligations.SetVoltageStoresClamped := by
  refine ⟨rfl, fun s => ⟨fun hs => ?_, fun hidle huser =>
    exec_of_gated (.inr (.inr rfl)) (settable_eq_false hidle huser)⟩, fun s t hs hover ht => ?_⟩
  · rw [exec_setVoltage_of_settable ((settable_iff s.state).mpr hs)]
    refine ⟨fun hlow => ?_, fun hlow hhigh => ?_, fun hhigh => ?_⟩
    · rw [clampVoltage_of_nonpos hlow.le]
    · rw [clampVoltage_of_mem hlow hhigh]
    · rw [clampVoltage_of_ge hhigh.le]
  · rw [exec_setVoltage_of_settable ((settable_iff s.state).mpr (.inl hs))] at ht
    obtain rfl := Host.Outcome.next.inj ht
    exact loop_voltage_of_idle_overcurrent hs hover

/-! ## DC_MOTOR_SPEED -/

section SpeedToVoltage
variable {c : Config} {x : ℚ}

theorem speedToVoltage_of_nonpos (hspeed : 0 ≤ c.nominalSpeed) (hx : x ≤ 0) :
    speedToVoltage c x = 0 := by
  rw [speedToVoltage, clamp_of_le hspeed hx, mul_zero, zero_div, clamp_of_le vMax_nonneg le_rfl]

theorem speedToVoltage_of_mem (hv : 0 ≤ c.nominalVoltage) (hx₁ : 0 ≤ x)
    (hx₂ : x ≤ c.nominalSpeed) :
    speedToVoltage c x = min 12 (c.nominalVoltage * x / c.nominalSpeed) := by
  rw [speedToVoltage, clamp_of_mem hx₁ hx₂]
  exact clampVoltage_of_nonneg (div_nonneg (mul_nonneg hv hx₁) (hx₁.trans hx₂))

theorem speedToVoltage_of_ge (hv : 0 ≤ c.nominalVoltage) (hspeed : 0 < c.nominalSpeed)
    (hx : c.nominalSpeed ≤ x) : speedToVoltage c x = min 12 c.nominalVoltage := by
  rw [speedToVoltage, clamp_of_ge hspeed.le hx, mul_div_cancel_right₀ _ hspeed.ne']
  exact clampVoltage_of_nonneg hv

end SpeedToVoltage

/-- The examples of 41_commands R126. -/
theorem speedToVoltage_examples {c : Config} (hspeed : c.nominalSpeed = 100) :
    (c.nominalVoltage = 12 → speedToVoltage c 50 = 6 ∧ speedToVoltage c 150 = 12 ∧
      speedToVoltage c (-3) = 0 ∧ speedToVoltage c (11 / 2) = 33 / 50) ∧
    (c.nominalVoltage = 24 → speedToVoltage c 75 = 12) := by
  have hpos : 0 < c.nominalSpeed := by norm_num [hspeed]
  have hmem {x : ℚ} (hv : 0 ≤ c.nominalVoltage) (h₁ : 0 ≤ x) (h₂ : x ≤ 100) :
      speedToVoltage c x = min 12 (c.nominalVoltage * x / 100) :=
    hspeed ▸ speedToVoltage_of_mem hv h₁ (hspeed ▸ h₂)
  constructor <;> intro hv <;> have hnonneg : 0 ≤ c.nominalVoltage := by norm_num [hv]
  · have habove : speedToVoltage c 150 = min 12 c.nominalVoltage :=
      speedToVoltage_of_ge hnonneg hpos (by norm_num [hspeed])
    have hbelow : speedToVoltage c (-3) = 0 := speedToVoltage_of_nonpos hpos.le (by norm_num)
    norm_num [hmem, habove, hbelow, hv]
  · norm_num [hmem, hv]

/-- Settles O12: the stored value by definition, then the speed below and above its range. -/
theorem dcMotorSpeedStoresConvertedSpeed : Obligations.DcMotorSpeedStoresConvertedSpeed := by
  refine ⟨rfl, fun s => rfl, fun c x hc => ?_, fun c => speedToVoltage_examples⟩
  obtain ⟨-, -, -, hpos, -, -⟩ := c.wf_iff.mp hc
  exact ⟨speedToVoltage_of_nonpos hpos.le, fun hv => speedToVoltage_of_ge hv hpos⟩

/-! ## OPEN_CHIP and CLOSE_CHIP -/

/-- Settles O13: OPEN_CHIP has no gate, and `enterStarting` writes the rest of its fields. -/
theorem openChipEntersStarting : Obligations.OpenChipEntersStarting :=
  ⟨rfl, fun _ => rfl⟩

/-- Settles O14: as OPEN_CHIP. -/
theorem closeChipEntersStarting : Obligations.CloseChipEntersStarting :=
  ⟨rfl, fun _ => rfl⟩

end Sys2Proof.Machine
end

section
/-! PROOFS of the tick's statements (42_tick): the loop's equation in each case of its table (R151 to
R158), the transitions of R160, the tick of R150 on a legal input, and the settle window of
60_exceptions R209 and 70_reset_and_hazards R255 over many ticks. -/

namespace Sys2Proof.Machine

/-! ## Sampling (42_tick R151) -/

theorem samples_iff (st : OperatingState) : st.samples = true ↔ st ≠ .starting ∧ st ≠ .idle := by
  cases st <;> decide

theorem sampleStep_of_starting {s : State} (hs : s.state = .starting) : sampleStep s = s :=
  sampleStep_of_not (by rw [hs]; rfl)

theorem sampleStep_of_idle {s : State} (hs : s.state = .idle) : sampleStep s = s :=
  sampleStep_of_not (by rw [hs]; rfl)

/-- After the sampling no result of the loop moves the cursor. -/
theorem loop_cursor (s : State) : (loop s).cursor = (sampleStep s).cursor := by
  obtain ⟨-, hl⟩ | ⟨-, hl⟩ | ⟨-, hl⟩ | ⟨-, hl⟩ | ⟨-, hl⟩ := loop_results s <;>
  rw [hl] <;> rfl

/-- Settles O26: the two values of `samples`, and `loop_cursor`. -/
theorem samplingFollowsTheState : Obligations.SamplingFollowsTheState := fun s =>
  ⟨fun hstarting hidle => sampleStep_of_samples ((samples_iff s.state).mpr ⟨hstarting, hidle⟩),
    fun hs => hs.elim sampleStep_of_starting sampleStep_of_idle, loop_cursor s⟩

/-! ## The loop, case by case (42_tick R153 to R158) -/

/-- A phase's own threshold is passed by the average after sampling (42_tick R157, R158). -/
def ThresholdPassed (s : State) : Prop :=
  (s.state = .openChip ∧ filterAverage (sampleStep s) > s.cfg.downThreshold) ∨
    (s.state = .closeChip ∧ filterAverage (sampleStep s) > s.cfg.upThreshold)

section Loop
variable {s : State}

/-- STARTING has no interlock and takes no sample, so its loop is its branch alone. -/
theorem loop_of_starting (hs : s.state = .starting) : loop s = emit (startingExit s) := by
  obtain ⟨hs', -, -⟩ | ⟨-, hl⟩ := loop_cases s
  · exact absurd hs hs'
  · rw [hl, sampleStep_of_starting hs]
    simp only [branch, hs]

theorem loop_of_settled (hs : s.state = .starting)
    (hover : s.ports.tl - s.phaseStartTime > s.cfg.startingTime) :
    loop s = emit { filterReset s with state := s.pendingState } := by
  rw [loop_of_starting hs, startingExit, settled, if_pos (decide_eq_true hover)]

theorem loop_of_unsettled (hs : s.state = .starting)
    (hle : s.ports.tl - s.phaseStartTime ≤ s.cfg.startingTime) : loop s = emit s := by
  rw [loop_of_starting hs, startingExit, settled, if_neg (by simpa using hle)]

theorem loop_of_not_overcurrent (hle : filterAverage (sampleStep s) ≤ s.cfg.maxCurrent) :
    loop s = branch (sampleStep s) (filterAverage (sampleStep s)) := by
  obtain ⟨-, hover, -⟩ | ⟨-, hl⟩ := loop_cases s
  · exact absurd hover hle.not_gt
  · exact hl

theorem loop_of_idle (hs : s.state = .idle) (hle : filterAverage s ≤ s.cfg.maxCurrent) :
    loop s = s := by
  have hsample : sampleStep s = s := sampleStep_of_idle hs
  rw [loop_of_not_overcurrent (by rwa [hsample]), hsample]
  simp only [branch, hs]

/-- A threshold stop zeroes the filter, so of the sample before it only the moved cursor is left. -/
theorem loop_of_thresholdPassed (hle : filterAverage (sampleStep s) ≤ s.cfg.maxCurrent)
    (hpass : ThresholdPassed s) :
    loop s =
      { s with
        voltage := 0, enabled := false, state := .idle, buf := List.replicate s.cfg.n 0,
        cursor := (s.cursor + 1) % s.cfg.n, outDir := 0, outBrake := 1, outPwm := 0,
        emissions := s.emissions ++ [⟨0, 1, 0⟩] } := by
  have hsamples : s.state.samples = true := by
    obtain ⟨hs, -⟩ | ⟨hs, -⟩ := hpass <;> rw [hs] <;> rfl
  have hl : loop s = emit (thresholdStop (sampleStep s)) := by
    rw [loop_of_not_overcurrent hle]
    obtain ⟨hs, hover⟩ | ⟨hs, hover⟩ := hpass
    · simp [branch, hs, openChipStop, overDown, hover]
    · simp [branch, hs, closeChipStop, overUp, hover]
  rw [hl, sampleStep_of_samples hsamples]
  rfl

/-- USER_CONTROL, and a phase whose threshold is not passed, only sample and emit. -/
theorem loop_of_not_thresholdPassed (hs : s.state.samples = true)
    (hle : filterAverage (sampleStep s) ≤ s.cfg.maxCurrent) (hpass : ¬ ThresholdPassed s) :
    loop s = emit (sampleStep s) := by
  rw [loop_of_not_overcurrent hle]
  cases hst : s.state with
  | idle | starting => simp [hst, OperatingState.samples] at hs
  | userControl => simp [branch, hst]
  | openChip =>
    have hdown : ¬ filterAverage (sampleStep s) > s.cfg.downThreshold :=
      fun h => hpass (.inl ⟨hst, h⟩)
    simp [branch, hst, openChipStop, overDown, hdown]
  | closeChip =>
    have hup : ¬ filterAverage (sampleStep s) > s.cfg.upThreshold :=
      fun h => hpass (.inr ⟨hst, h⟩)
    simp [branch, hst, closeChipStop, overUp, hup]

end Loop

/-- Settles O27: the stop is `loop_of_overcurrent`, and the interlock's test is strict and leaves
out STARTING (`interlockFires_iff`). -/
theorem interlockStopsTheMotor : Obligations.InterlockStopsTheMotor := by
  refine fun s => ⟨fun hs hover => ?_, fun hs current => ?_, ?_⟩
  · rw [loop_of_overcurrent hs hover, ← sampleStep_emissions s]
    rfl
  · exact Bool.eq_false_iff.mpr fun h => ((interlockFires_iff s current).mp h).1 hs
  · exact Bool.eq_false_iff.mpr fun h => lt_irrefl _ ((interlockFires_iff s _).mp h).2

/-- Settles O28: IDLE takes no sample and its branch is empty. -/
theorem idleBranchDoesNothing : Obligations.IdleBranchDoesNothing := fun _ => loop_of_idle

/-- Settles O29: USER_CONTROL has no threshold of its own. -/
theorem userControlBranchEmits : Obligations.UserControlBranchEmits := fun s hs hle =>
  loop_of_not_thresholdPassed (by rw [hs]; rfl) hle (by simp [ThresholdPassed, hs])

/-- Settles O30: the two sides of the settle test; no time since the start is on its lower side. -/
theorem startingBranchIsTimed : Obligations.StartingBranchIsTimed := by
  refine fun s hs => ⟨loop_of_settled hs, loop_of_unsettled hs, fun htl => ?_⟩
  rw [loop_of_unsettled hs (by omega)]
  exact hs

/-- Settles O31: the two sides of DOWN_THRESHOLD. -/
theorem openChipBranchStopsWhenSeated : Obligations.OpenChipBranchStopsWhenSeated :=
  fun _ hs hle => ⟨fun hover => loop_of_thresholdPassed hle (.inl ⟨hs, hover⟩),
    fun hdown => loop_of_not_thresholdPassed (by rw [hs]; rfl) hle
      (by simpa [ThresholdPassed, hs] using hdown)⟩

/-- Settles O32: the two sides of UP_THRESHOLD. -/
theorem closeChipBranchStopsAtTorque : Obligations.CloseChipBranchStopsAtTorque :=
  fun _ hs hle => ⟨fun hover => loop_of_thresholdPassed hle (.inr ⟨hs, hover⟩),
    fun hup => loop_of_not_thresholdPassed (by rw [hs]; rfl) hle
      (by simpa [ThresholdPassed, hs] using hup)⟩

/-! ## The transitions (42_tick R160) -/

/-- The transitions of the commands: the three starting commands, DC_STOP, and no other. -/
theorem exec_state {i : Instr} {s t : State} (h : exec i s = .next t) :
    t.state =
      if i = .openChip ∨ i = .closeChip ∨
          (i = .dcStart ∧ (s.state = .idle ∨ s.state = .userControl)) then .starting
      else if i = .dcStop then .idle
      else s.state := by
  simp only [← settable_iff]
  obtain ⟨rfl, rfl⟩ | ⟨rfl, rfl⟩ | ⟨rfl, rfl⟩ | ⟨rfl, rfl⟩ | ⟨rfl, rfl⟩ | ⟨rfl, hs, rfl⟩ |
    ⟨d, rfl, hs, rfl⟩ | ⟨rfl, hs, rfl⟩ | ⟨rfl | ⟨d, rfl⟩ | rfl, hs, rfl⟩ := exec_cases h <;>
  simp [*]

theorem exec_buf {i : Instr} {s t : State} (h : exec i s = .next t) : t.buf = s.buf :=
  List.ext_getElem? (commandsLeaveTheFilterAlone i s t h).1

/-- A loop outside STARTING that neither the interlock nor a threshold stops keeps its state and the
sampled filter. -/
theorem loop_state_buf_of_no_stop {s : State} (hs : s.state ≠ .starting)
    (hle : filterAverage (sampleStep s) ≤ s.cfg.maxCurrent) (hpass : ¬ ThresholdPassed s) :
    (loop s).state = s.state ∧ (loop s).buf = (sampleStep s).buf := by
  by_cases hidle : s.state = .idle
  · rw [sampleStep_of_idle hidle] at hle ⊢
    rw [loop_of_idle hidle hle]
    exact ⟨rfl, rfl⟩
  · rw [loop_of_not_thresholdPassed ((samples_iff s.state).mpr ⟨hs, hidle⟩) hle hpass]
    exact ⟨sampleStep_state s, rfl⟩

/-- A loop that changes the state to another than IDLE is the exit from STARTING: the other results
keep the state or stop. -/
theorem starting_of_loop_leaves {s : State} (hne : (loop s).state ≠ s.state)
    (hidle : (loop s).state ≠ .idle) : s.state = .starting := by
  obtain ⟨-, hl⟩ | ⟨-, hl⟩ | ⟨hs, -⟩ | ⟨-, hl⟩ | ⟨-, hl⟩ := loop_results s
  · exact absurd (by simp [hl]) hne
  · exact absurd (by simp [hl]) hne
  · exact hs
  · exact absurd (by simp [hl]) hidle
  · exact absurd (by simp [hl]) hidle

/-- Settles O34: the commands by `exec_state`; for the loop each row of the table is one of the
equations above. -/
theorem noOtherTransition : Obligations.NoOtherTransition := by
  refine ⟨fun i s t h => ⟨exec_buf h, exec_state h⟩,
    fun s => ⟨fun hs hover => ?_, fun hs => ⟨fun hover => ?_, fun hle => ?_⟩, fun hs hle => ?_⟩,
    fun s => starting_of_loop_leaves⟩
  · rw [loop_of_overcurrent hs hover]
    exact ⟨rfl, rfl⟩
  · rw [loop_of_settled hs hover]
    exact ⟨rfl, rfl⟩
  · rw [loop_of_unsettled hs hle]
    exact ⟨hs, rfl⟩
  · split_ifs with hpass
    · rw [loop_of_thresholdPassed hle hpass]
      exact ⟨rfl, rfl⟩
    · exact loop_state_buf_of_no_stop hs hle hpass

/-! ## The tick (42_tick R150) -/

theorem fetch_of_dutiesMet {s : State} (hcfg : s.cfg.wf = true) (hmem : Memory.wf s = true)
    (hd : HostDutiesMet s) : fetch s = .next (latch s (nextInput s)) :=
  fetch_eq_next.mpr ⟨hcfg, hmem, hd.1, hd.2, rfl⟩

theorem nextInput_of_supplied {s : State} {i : TickInput} {is : List TickInput}
    (h : s.supplied = i :: is) : nextInput s = i := by
  simp [nextInput, h]

/-- Settles O44: a legal tick starts (`fetch_of_dutiesMet`) with the next input latched. -/
theorem stepRunsTheDecodedInstruction : Obligations.StepRunsTheDecodedInstruction := by
  rintro s u i hcfg hmem hd rfl he
  exact ⟨step_eq_next.mpr ⟨_, u, fetch_of_dutiesMet hcfg hmem hd, he, rfl⟩,
    fun j js hjs => nextInput_of_supplied hjs⟩

/-! ## The settle window (60_exceptions R209, 70_reset_and_hazards R255, R259) -/

/-- The first of a list of inputs that meet the duties meets them for the next tick. -/
theorem hostDutiesMet_of_supplied {s : State} {i : TickInput} {is : List TickInput}
    (hsup : s.supplied = i :: is) (hd : DutiesAlong s.cfg s.ports.tl (i :: is)) :
    HostDutiesMet s := by
  obtain ⟨hclock, hsample, -⟩ := hd
  rw [HostDutiesMet, nextInput_of_supplied hsup]
  exact ⟨(clockDuty_iff s i).mpr hclock, (sampleDuty_iff s i).mpr hsample⟩

/-- The block in STARTING, with `is` as the next inputs of the host. -/
structure Waiting (s : State) (is : List TickInput) : Prop where
  inv : BlockInv s
  starting : s.state = .starting
  supplied : s.supplied = is
  duties : DutiesAlong s.cfg s.ports.tl is

/-- A NOP tick in the settle window takes its input and emits. -/
def windowTick (s : State) (i : TickInput) : State := emit (latch s i)

/-- The input is a NOP within the deadline of the STARTING phase of `s`. -/
def QuietUntilDeadline (s : State) (i : TickInput) : Prop :=
  i.instr = .nop ∧ i.tl ≤ s.phaseStartTime + s.cfg.startingTime

section Waiting
variable {s : State} {i : TickInput} {is : List TickInput}

theorem Waiting.step_of_nop (h : Waiting s (i :: is)) (hi : i.instr = .nop) :
    step s = .next (loop (latch s i)) := by
  have hf := fetch_of_dutiesMet h.inv.config h.inv.filter
    (hostDutiesMet_of_supplied h.supplied h.duties)
  rw [nextInput_of_supplied h.supplied] at hf
  exact Machine.step_of_nop hf hi

theorem Waiting.step_of_quiet (h : Waiting s (i :: is)) (hi : QuietUntilDeadline s i) :
    step s = .next (windowTick s i) := by
  obtain ⟨hnop, htl⟩ := hi
  have hle : i.tl - s.phaseStartTime ≤ s.cfg.startingTime := by omega
  rw [h.step_of_nop hnop, loop_of_unsettled (s := latch s i) h.starting hle]
  rfl

/-- The first NOP tick past the deadline ends the phase. -/
theorem Waiting.step_of_late (h : Waiting s (i :: is)) (hi : i.instr = .nop)
    (htl : s.phaseStartTime + s.cfg.startingTime < i.tl) :
    step s = .next (emit { filterReset (latch s i) with state := s.pendingState }) := by
  have hover : i.tl - s.phaseStartTime > s.cfg.startingTime := by omega
  rw [h.step_of_nop hi, loop_of_settled (s := latch s i) h.starting hover]
  rfl

theorem Waiting.windowTick (h : Waiting s (i :: is)) (hi : QuietUntilDeadline s i) :
    Waiting (windowTick s i) is where
  inv := stepKeepsTheInvariant _ _ h.inv (h.step_of_quiet hi)
  starting := h.starting
  supplied := congrArg List.tail h.supplied
  duties := let ⟨_, _, hrest⟩ := h.duties; hrest

end Waiting

/-- The settle window as a run: each quiet input is one `windowTick`. -/
theorem runTicks_of_quiet (is js : List TickInput) {s : State} (h : Waiting s (is ++ js))
    (hq : ∀ i ∈ is, QuietUntilDeadline s i) :
    runTicks is.length s = .next (is.foldl windowTick s) ∧
      Waiting (is.foldl windowTick s) js := by
  induction is generalizing s with
  | nil => exact ⟨rfl, h⟩
  | cons i is ih =>
    have hi : QuietUntilDeadline s i := hq i List.mem_cons_self
    have hrest : ∀ j ∈ is, QuietUntilDeadline (windowTick s i) j := fun j hj =>
      hq j (List.mem_cons_of_mem i hj)
    rw [List.length_cons, runTicks_succ_of_next _ (h.step_of_quiet hi)]
    exact ih (h.windowTick hi) hrest

/-- What the ticks of the settle window leave alone, and their emissions: the driven values once
each. -/
theorem foldl_windowTick_frame (is : List TickInput) (s : State) :
    is.foldl windowTick s =
      { is.foldl windowTick s with
        cfg := s.cfg, enabled := s.enabled, state := s.state, pendingState := s.pendingState,
        direction := s.direction, voltage := s.voltage, phaseStartTime := s.phaseStartTime,
        buf := s.buf, cursor := s.cursor,
        emissions := s.emissions ++ List.replicate is.length s.signal } := by
  induction is generalizing s with
  | nil => simp
  | cons i is ih =>
    rw [List.foldl_cons, ih]
    simp [windowTick, List.replicate_succ]

/-- Settles O49: `runTicks_of_quiet` is the run up to the deadline, with the fields of
`foldl_windowTick_frame`; the tick after it is `Waiting.step_of_late`. -/
theorem settleWindowRuns : Obligations.SettleWindowRuns := by
  intro s is i rest hinv hs hsup hd hq hi htl
  have hwait : Waiting s (is ++ i :: rest) := ⟨hinv, hs, hsup, hsup ▸ hd⟩
  have hen : s.enabled = true :=
    Bool.of_not_eq_false fun hoff => by simpa [hs] using hinv.idle.mpr hoff
  obtain ⟨hrun, hlast⟩ := runTicks_of_quiet is (i :: rest) hwait hq
  refine ⟨_, _, hrun, hlast.step_of_late hi (by rw [foldl_windowTick_frame]; exact htl), ?_⟩
  rw [foldl_windowTick_frame]
  exact ⟨hs, rfl, rfl, rfl, rfl, hen, rfl, rfl, rfl, rfl, hen, rfl⟩

end Sys2Proof.Machine
end

section
/-! PROOFS of the signal driver's statements (43_signal): the emission of R180, the mapping of R181,
the events of a tick and the registers after them (R182, R183), and the safety of the outputs
(R184). -/

namespace Sys2Proof.Machine

/-! ## One emission (43_signal R180, R181) -/

/-- Settles O35: this is the definition of an emission. -/
theorem emitLatchesAndRecords : Obligations.EmitLatchesAndRecords := by
  rintro s o rfl
  rfl

theorem duty_eq_natFloor (c : Config) (v : ℚ) : duty c v = ⌊v * c.fullScale / 12⌋₊ := rfl

/-- Up to 12 volts the duty is at most the full scale. -/
theorem duty_le_fullScale (c : Config) {v : ℚ} (h : v ≤ 12) : duty c v ≤ c.fullScale := by
  rw [duty_eq_natFloor]
  refine Nat.floor_le_of_le ?_
  rw [div_le_iff₀ (by norm_num), mul_comm]
  exact mul_le_mul_of_nonneg_left h c.fullScale.cast_nonneg

/-- The examples of 43_signal R181. -/
theorem duty_examples {c : Config} (h : c.fullScale = 255) :
    duty c 12 = 255 ∧ duty c 6 = 127 ∧ duty c 3 = 63 ∧ duty c (33 / 50) = 14 ∧ duty c 0 = 0 := by
  simp only [duty_eq_natFloor, h]
  norm_num

/-- Settles O36: the mapping case by case; a voltage in range makes the floor a natural number,
bounded by `duty_le_fullScale`. -/
theorem signalMapDrivesOrBrakes : Obligations.SignalMapDrivesOrBrakes := by
  refine ⟨fun c d v => ⟨by cases d <;> rfl, rfl⟩, fun c v hlow hhigh => ⟨?_, ?_⟩,
    fun c => duty_examples⟩
  · rw [duty_eq_natFloor]
    exact Int.natCast_floor_eq_floor (by positivity)
  · exact duty_le_fullScale c hhigh

/-! ## The events of a tick (43_signal R182, R183)

A host's view that records a list of events has one law of composition (`record_append`), so the
events of a tick are those of its command followed by those of its loop. -/

/-- The view after further events: the registers hold the last one, or what they held. -/
def HostView.record (v : HostView) (es : List Outputs) : HostView :=
  ⟨es.getLast?.getD v.outputs, v.emissions ++ es⟩

@[simp] theorem record_nil (v : HostView) : v.record [] = v := by simp [HostView.record]

theorem record_append (v : HostView) (es fs : List Outputs) :
    (v.record es).record fs = v.record (es ++ fs) := by
  cases hfs : fs.getLast? <;> simp [HostView.record, List.getLast?_append, hfs]

theorem hostView_emit (s : State) : (emit s).hostView = s.hostView.record [s.signal] := rfl

@[simp] theorem hostView_sampleStep (s : State) : (sampleStep s).hostView = s.hostView := by
  simp [State.hostView]

/-- The events of a command (41_commands R122). -/
def commandEvents (i : Instr) : List Outputs := if i = .dcStop then [disabledPattern] else []

/-- The events of a loop (42_tick R159): none in IDLE with the average at most MAX_CURRENT. -/
def loopEvents (s : State) : List Outputs :=
  if s.state = .idle ∧ filterAverage s ≤ s.cfg.maxCurrent then [] else [(loop s).signal]

theorem exec_hostView {i : Instr} {s t : State} (h : exec i s = .next t) :
    t.hostView = s.hostView.record (commandEvents i) := by
  obtain ⟨rfl, rfl⟩ | ⟨rfl, rfl⟩ | ⟨rfl, rfl⟩ | ⟨rfl, rfl⟩ | ⟨rfl, rfl⟩ | ⟨rfl, -, rfl⟩ |
    ⟨d, rfl, -, rfl⟩ | ⟨rfl, -, rfl⟩ | ⟨rfl | ⟨d, rfl⟩ | rfl, -, rfl⟩ := exec_cases h
  case inr.inl => exact hostView_emit (disable s)
  all_goals exact (record_nil _).symm

/-- Except in IDLE below the interlock a loop ends in one emission, and nothing the host sees
changes before it. -/
theorem loop_ends_in_emit {s : State}
    (h : ¬(s.state = .idle ∧ filterAverage s ≤ s.cfg.maxCurrent)) :
    ∃ u, loop s = emit u ∧ u.hostView = s.hostView := by
  by_cases hidle : s.state = .idle
  · have hover : s.cfg.maxCurrent < filterAverage s := not_le.mp fun hle => h ⟨hidle, hle⟩
    refine ⟨disable s, ?_, rfl⟩
    rw [loop_of_overcurrent (by simp [hidle]) (by rwa [sampleStep_of_idle hidle]),
      sampleStep_of_idle hidle, emergencyStop_eq]
  · obtain ⟨hs, -⟩ | ⟨-, hl⟩ | ⟨-, hl⟩ | ⟨-, hl⟩ | ⟨-, hl⟩ := loop_results s
    · exact absurd hs hidle
    all_goals exact ⟨_, hl, hostView_sampleStep s⟩

theorem loop_hostView (s : State) : (loop s).hostView = s.hostView.record (loopEvents s) := by
  unfold loopEvents
  split_ifs with h
  · rw [loop_of_idle h.1 h.2, record_nil]
  · obtain ⟨u, hl, hu⟩ := loop_ends_in_emit h
    rw [hl, hostView_emit, hu, emit_signal]

/-- The events of a tick whose command is `i` and whose loop runs from `u`. -/
def tickEvents (i : Instr) (u : State) : List Outputs := commandEvents i ++ loopEvents u

theorem tick_hostView {s l u : State} (hf : fetch s = .next l)
    (he : exec (decode l.ports.w) l = .next u) :
    (loop u).hostView = s.hostView.record (tickEvents (decode l.ports.w) u) := by
  have hl : l.hostView = s.hostView := by
    obtain ⟨-, -, -, -, rfl⟩ := fetch_eq_next.mp hf
    rfl
  rw [loop_hostView, exec_hostView he, hl, record_append, tickEvents]

/-- Settles O38: the events are those of `tick_hostView`; an emission of what the registers hold
writes them as they are. -/
theorem outputsHoldTheLastEmission : Obligations.OutputsHoldTheLastEmission :=
  ⟨fun _ l u hf he => ⟨loop u, tickEvents (decode l.ports.w) u,
      step_eq_next.mpr ⟨l, u, hf, he, rfl⟩, rfl, tick_hostView hf he⟩,
    fun s hs => emitLatchesAndRecords s _ hs.symm⟩

theorem tickEvents_length (i : Instr) (u : State) :
    (tickEvents i u).length = (if i = .dcStop then 1 else 0) +
      (if u.state = .idle ∧ filterAverage u ≤ u.cfg.maxCurrent then 0 else 1) := by
  rw [tickEvents, List.length_append, commandEvents, loopEvents]
  split_ifs <;> rfl

/-- A tick that emits twice does so for DC_STOP and in its loop. -/
theorem both_emit_of_two_events {i : Instr} {u : State} (h : (tickEvents i u).length = 2) :
    i = .dcStop ∧ ¬(u.state = .idle ∧ filterAverage u ≤ u.cfg.maxCurrent) := by
  rw [tickEvents_length] at h
  split_ifs at h with hstop hquiet
  · omega
  · exact ⟨hstop, hquiet⟩
  · omega
  · omega

/-- An emission of a loop that starts in IDLE is the interlock's, since the IDLE branch has none. -/
theorem loopEvents_of_idle_overcurrent {s : State} (hs : s.state = .idle)
    (hover : s.cfg.maxCurrent < filterAverage s) : loopEvents s = [disabledPattern] := by
  rw [loopEvents, if_neg fun h => h.2.not_gt hover,
    loop_of_overcurrent (by simp [hs]) (by rwa [sampleStep_of_idle hs])]
  rfl

/-- Settles O37: the count is `tickEvents_length`. Two events are one of DC_STOP, which ends in
IDLE, and one of the loop, which is then the interlock's. -/
theorem emissionsPerTick : Obligations.EmissionsPerTick := by
  intro s l u hf he
  have hlen := tickEvents_length (decode l.ports.w) u
  refine ⟨loop u, tickEvents (decode l.ports.w) u, step_eq_next.mpr ⟨l, u, hf, he, rfl⟩,
    congrArg HostView.emissions (tick_hostView hf he), hlen, ?_, fun htwo => ?_⟩
  · rw [hlen]
    split_ifs <;> omega
  · obtain ⟨hstop, hloop⟩ := both_emit_of_two_events htwo
    have hidle : u.state = .idle := by simpa [hstop] using exec_state he
    have hover : u.cfg.maxCurrent < filterAverage u := not_le.mp fun hle => hloop ⟨hidle, hle⟩
    refine ⟨hstop, hidle, hover, ?_⟩
    rw [tickEvents, hstop, loopEvents_of_idle_overcurrent hidle hover]
    rfl

/-! ## Safety of the outputs (43_signal R184) -/

/-- Settles O39: a tick ends in the invariant, where the registers hold the signal of the fields,
and a disabled motor has the disabled pattern for its signal. -/
theorem disabledMotorIsBraked : Obligations.DisabledMotorIsBraked := by
  intro s t hs hstep hoff
  have hout : t.outputs = disabledPattern :=
    (stepKeepsTheInvariant s t hs hstep).outputs.trans (signal_of_disabled hoff)
  exact ⟨congrArg Outputs.dir hout, congrArg Outputs.brake hout, congrArg Outputs.pwm hout⟩

end Sys2Proof.Machine
end

section
/-! PROOFS of the exceptions' statements (60_exceptions): the block never stops stepping while the
host keeps its duties (R200), IDLE and the entry to STARTING over one tick (R204, R206), and the
labels of the safety conditions with their responses (R201). -/

namespace Sys2Proof.Machine

/-! ## A tick on a legal block (60_exceptions R200, 70_reset_and_hazards R241, R242) -/

section Tick
variable {s : State}

/-- With no input listed the tick draws a free one, which meets the duties of any configuration
whose sample range is not empty. -/
theorem hostDutiesMet_of_nil (hcfg : s.cfg.wf = true) (hsup : s.supplied = []) :
    HostDutiesMet s := by
  obtain ⟨-, -, -, -, -, hraw⟩ := s.cfg.wf_iff.mp hcfg
  have hdraw : nextInput s = drawnInput s (hostDraw s.ticks) := by simp [nextInput, hsup]
  rw [HostDutiesMet, hdraw]
  exact ⟨drawnInput_clockDuty s _, drawnInput_sampleDuty s _ hraw⟩

theorem hostDutiesMet_of_dutiesAlong (hcfg : s.cfg.wf = true)
    (hd : DutiesAlong s.cfg s.ports.tl s.supplied) : HostDutiesMet s := by
  cases hsup : s.supplied with
  | nil => exact hostDutiesMet_of_nil hcfg hsup
  | cons i is => exact hostDutiesMet_of_supplied hsup (hsup ▸ hd)

/-- A tick that completes met the host's duties, since it started. -/
theorem hostDutiesMet_of_step {t : State} (h : step s = .next t) : HostDutiesMet s := by
  obtain ⟨l, u, hf, -, -⟩ := step_eq_next.mp h
  obtain ⟨-, -, hclock, hsample, -⟩ := fetch_eq_next.mp hf
  exact ⟨hclock, hsample⟩

/-- On a legal block a broken duty is the only thing that stops a tick, the clock's named first. -/
theorem step_refused_of_broken_duty (hcfg : s.cfg.wf = true) (hmem : Memory.wf s = true)
    (hd : ¬ HostDutiesMet s) :
    step s = .refused .clockRunsBack ∨ step s = .refused .sampleOutOfRange := by
  cases hclock : clockDuty s (nextInput s) with
  | false => exact .inl (step_of_fetch_refused (by simp [fetch, hcfg, hmem, hclock]))
  | true =>
    have hsample : sampleDuty s (nextInput s) = false :=
      Bool.eq_false_iff.mpr fun h => hd ⟨hclock, h⟩
    exact .inr (step_of_fetch_refused (by simp [fetch, hcfg, hmem, hclock, hsample]))

/-- A legal tick latches its input, applies the command the input carries, and runs the loop. -/
theorem exists_exec_and_step (hcfg : s.cfg.wf = true) (hmem : Memory.wf s = true)
    (hd : HostDutiesMet s) :
    ∃ u, exec (nextInput s).instr (latch s (nextInput s)) = .next u ∧ step s = .next (loop u) := by
  obtain ⟨u, hu⟩ := exec_total (nextInput s).instr (latch s (nextInput s))
  exact ⟨u, hu, (stepRunsTheDecodedInstruction s u _ hcfg hmem hd rfl hu).1⟩

/-- The host's side after a tick: its input at the ports and off the list. -/
theorem step_host_side {t : State} (h : step s = .next t) :
    t.ports = (nextInput s).toPorts ∧ t.supplied = s.supplied.tail := by
  obtain ⟨l, u, hf, he, rfl⟩ := step_eq_next.mp h
  obtain ⟨-, -, -, -, rfl⟩ := fetch_eq_next.mp hf
  obtain ⟨-, -, -, hports, hsup, -⟩ := commandsLeaveTheFilterAlone _ _ _ he
  obtain ⟨-, -, -, -, hports', hsup', -⟩ := loopWritesItsFieldsOnly u
  exact ⟨hports'.trans hports, hsup'.trans hsup⟩

/-- What is left of the list meets the duties from the clock that the tick ends at. -/
theorem dutiesAlong_of_step {t : State} (h : step s = .next t)
    (hd : DutiesAlong s.cfg s.ports.tl s.supplied) :
    DutiesAlong t.cfg t.ports.tl t.supplied := by
  obtain ⟨hports, hsup⟩ := step_host_side h
  rw [hports, hsup, configurationIsFixed s t h]
  cases hs : s.supplied with
  | nil => trivial
  | cons i is =>
    rw [nextInput_of_supplied hs]
    rw [hs] at hd
    obtain ⟨-, -, hrest⟩ := hd
    exact hrest

end Tick

/-- Settles O48, by induction on the number of ticks: the next tick meets the duties, so it
completes, in the invariant (`stepKeepsTheInvariant`) and with the rest of the list still meeting
the duties. -/
theorem blockNeverStopsStepping : Obligations.BlockNeverStopsStepping := by
  intro s hinv hd k
  induction k generalizing s with
  | zero => exact ⟨s, rfl, hinv⟩
  | succ k ih =>
    obtain ⟨u, -, hstep⟩ := exists_exec_and_step hinv.config hinv.filter
      (hostDutiesMet_of_dutiesAlong hinv.config hd)
    rw [runTicks_succ_of_next k hstep]
    exact ih _ (stepKeepsTheInvariant s _ hinv hstep) (dutiesAlong_of_step hstep hd)

/-- Settles O46: a tick that completes met the duties, one that meets them completes, and the two
refusals are `step_refused_of_broken_duty`. -/
theorem stepStopsOnlyOnBrokenDuties : Obligations.StepStopsOnlyOnBrokenDuties := by
  intro s hinv
  refine ⟨⟨fun ⟨_, hstep⟩ => hostDutiesMet_of_step hstep, fun hd => ?_⟩,
    step_refused_of_broken_duty hinv.config hinv.filter, hostDutiesMet_of_nil hinv.config⟩
  obtain ⟨u, -, hstep⟩ := exists_exec_and_step hinv.config hinv.filter hd
  exact ⟨_, hstep⟩

/-! ## The entry to STARTING (60_exceptions R204) -/

/-- OPEN_CHIP and CLOSE_CHIP enter STARTING at the command time, with the motor on and the filter
untouched. -/
theorem exec_chip_command {i : Instr} {s u : State} (hi : i = .openChip ∨ i = .closeChip)
    (h : exec i s = .next u) :
    u.state = .starting ∧ u.enabled = true ∧ u.phaseStartTime = s.ports.tc ∧ u.cfg = s.cfg ∧
      u.ports = s.ports ∧ u.buf = s.buf ∧ u.cursor = s.cursor := by
  obtain rfl | rfl := hi <;> obtain rfl := Host.Outcome.next.inj h <;>
  exact ⟨rfl, rfl, rfl, rfl, rfl, rfl, rfl⟩

/-- Settles O50: after the command the loop is that of STARTING, which takes no sample and has no
interlock; its two cases are the two sides of the settle test. -/
theorem commandActsBeforeTheLoop : Obligations.CommandActsBeforeTheLoop := by
  intro s hcfg hmem hd hi
  obtain ⟨u, hu, hstep⟩ := exists_exec_and_step hcfg hmem hd
  obtain ⟨hs, hen, hphase, hucfg, hports, hbuf, hcursor⟩ := exec_chip_command hi hu
  obtain ⟨-, -, hphase', -, -, -, -, hkeeps⟩ := loopWritesItsFieldsOnly u
  have htime : u.ports.tl - u.phaseStartTime = (nextInput s).tl - (nextInput s).tc := by
    rw [hphase, hports]
    rfl
  have hsettle : u.cfg.startingTime = s.cfg.startingTime := by rw [hucfg]; rfl
  refine ⟨loop u, hstep, ?_, (hkeeps (.inr hs)).1.trans hen, hphase'.trans hphase, fun hle => ?_,
    fun hlate => ?_⟩
  · rw [loop_cursor, sampleStep_of_starting hs, hcursor]
    rfl
  · rw [loop_of_unsettled hs (by omega)]
    exact ⟨hs, hbuf⟩
  · rw [loop_of_settled hs (by omega)]
    exact ⟨rfl, by rw [emit_buf, filterReset_buf, hucfg]; rfl⟩

/-! ## IDLE (60_exceptions R206) -/

/-- A loop in IDLE takes no sample: it does nothing, or the interlock stops a stopped motor. -/
theorem loop_idle_frame {s : State} (hs : s.state = .idle) :
    (loop s).state = .idle ∧ (loop s).buf = s.buf ∧ (loop s).cursor = s.cursor := by
  rw [loop_cursor, sampleStep_of_idle hs]
  by_cases hover : s.cfg.maxCurrent < filterAverage s
  · rw [loop_of_overcurrent (by simp [hs]) (by rwa [sampleStep_of_idle hs]), sampleStep_of_idle hs]
    exact ⟨rfl, rfl, rfl⟩
  · rw [loop_of_idle hs (not_lt.mp hover)]
    exact ⟨hs, rfl, rfl⟩

/-- Settles O51: by `exec_state` the command leaves IDLE as it is, and so does the loop. -/
theorem idleLastsUntilACommandStarts : Obligations.IdleLastsUntilACommandStarts := by
  intro s hcfg hmem hd hs hi
  obtain ⟨u, hu, hstep⟩ := exists_exec_and_step hcfg hmem hd
  obtain ⟨-, hcursor, -⟩ := commandsLeaveTheFilterAlone _ _ _ hu
  have hbuf : u.buf = s.buf := (exec_buf hu).trans (latch_buf s _)
  simp only [List.mem_cons, List.not_mem_nil, or_false, not_or] at hi
  have hidle : u.state = .idle := by simpa [hi, hs] using exec_state hu
  obtain ⟨hstate, hbuf', hcursor'⟩ := loop_idle_frame hidle
  exact ⟨loop u, hstep, hstate, hbuf'.trans hbuf, hcursor'.trans hcursor⟩

/-! ## The labels of the safety conditions (60_exceptions R201) -/

section Labels
variable (s : State) (i : TickInput)

theorem overcurrent_mem_loopConditions :
    SafetyCondition.overcurrent ∈ loopConditions s ↔
      s.state ≠ .starting ∧ filterAverage (sampleStep s) > s.cfg.maxCurrent := by
  simp [loopConditions, overcurrent, interlockFires_iff]

theorem unrecognized_mem_commandConditions :
    SafetyCondition.unrecognized ∈ commandConditions s i ↔ unrecognized i.cmd = true := by
  simp [commandConditions]

theorem invalidTransition_mem_commandConditions :
    SafetyCondition.invalidTransition ∈ commandConditions s i ↔
      invalidTransition s.state i.instr = true := by
  simp [commandConditions, TickInput.instr]

theorem outOfRange_mem_commandConditions :
    SafetyCondition.outOfRange ∈ commandConditions s i ↔
      outOfRange s.cfg s.state i.cmd.resolve.2 i.instr = true := by
  simp [commandConditions, TickInput.instr]

end Labels

/-! ### SC_INVALID_TRANSITION -/

theorem invalidTransition_iff (st : OperatingState) (i : Instr) :
    invalidTransition st i = true ↔ st.settable = false ∧ Gated i := by
  cases i <;> simp [invalidTransition, Gated]

/-! ### SC_UNRECOGNIZED -/

/-- The token and its value select a command of the text protocol (30_encoding R84, R85, R86). -/
def TextCommand (token value : List Byte) : Prop :=
  token ∈ [tokenDcStop, tokenDcStart, tokenOpenChip, tokenCloseChip] ∨
    (token = tokenDcMotorDir ∧ (value = [0x30] ∨ value = [0x31])) ∨
    (token = tokenDcMotorSpeed ∧ ∃ q, decimalValue value = some q)

theorem TextCommand.mem_textTokens {token value : List Byte} (h : TextCommand token value) :
    token ∈ textTokens := by
  rw [Sys2Proof.mem_textTokens]
  obtain hplain | ⟨rfl, -⟩ | ⟨rfl, -⟩ := h
  · simp only [List.mem_cons, List.not_mem_nil, or_false] at hplain
    tauto
  · simp
  · simp

/-- No token holds the separator, so a message is split behind its token (30_encoding R83). -/
theorem dash_not_mem_of_mem_textTokens : ∀ token ∈ textTokens, dash ∉ token := by decide

theorem textCommand_dcMotorDir_iff (value : List Byte) :
    TextCommand tokenDcMotorDir value ↔ value = [0x30] ∨ value = [0x31] := by
  have hne : tokenDcMotorDir ∉ [tokenDcStop, tokenDcStart, tokenOpenChip, tokenCloseChip] ∧
      tokenDcMotorDir ≠ tokenDcMotorSpeed := by decide
  simp [TextCommand, hne]

theorem textCommand_dcMotorSpeed_iff (value : List Byte) :
    TextCommand tokenDcMotorSpeed value ↔ ∃ q, decimalValue value = some q := by
  have hne : tokenDcMotorSpeed ∉ [tokenDcStop, tokenDcStart, tokenOpenChip, tokenCloseChip] ∧
      tokenDcMotorSpeed ≠ tokenDcMotorDir := by decide
  simp [TextCommand, hne]

/-- The text commands are the tokens and values that do not select the NOP word. -/
theorem tokenCommand_word_ne_zero_iff (token value : List Byte) :
    (tokenCommand token value).1 ≠ 0x00 ↔ TextCommand token value := by
  by_cases htok : token ∈ textTokens
  · obtain rfl | rfl | rfl | rfl | rfl | rfl := mem_textTokens.mp htok
    · simp [TextCommand]
    · simp [TextCommand]
    · rw [textCommand_dcMotorDir_iff, tokenCommand_dcMotorDir]
      split_ifs with h0 h1
      · exact iff_of_true (by decide) (.inl h0)
      · exact iff_of_true (by decide) (.inr h1)
      · exact iff_of_false (by decide) (not_or.mpr ⟨h0, h1⟩)
    · rw [textCommand_dcMotorSpeed_iff]
      cases hv : decimalValue value with
      | none => simp [tokenCommand_dcMotorSpeed_of_none hv]
      | some q => simp [tokenCommand_dcMotorSpeed_of_some hv]
    · simp [TextCommand]
    · simp [TextCommand]
  · exact iff_of_false (by simp [tokenCommand_of_not_mem value htok])
      fun h => htok h.mem_textTokens

/-- A message selects a command exactly where it is a text command's token, a dash, and its
value. -/
theorem textDecode_word_ne_zero_iff (m : List Byte) :
    (textDecode m).1 ≠ 0x00 ↔
      ∃ token value : List Byte, m = token ++ dash :: value ∧ TextCommand token value := by
  constructor
  · intro hword
    cases hm : splitFirst dash m with
    | none => exact absurd (by rw [textDecode_of_no_dash (splitFirst_eq_none_iff.mp hm)]) hword
    | some p =>
      obtain ⟨token, value⟩ := p
      obtain ⟨hdash, rfl⟩ := splitFirst_eq_some_iff.mp hm
      rw [textDecode_append_dash hdash] at hword
      exact ⟨token, value, rfl, (tokenCommand_word_ne_zero_iff token value).mp hword⟩
  · rintro ⟨token, value, rfl, hcmd⟩
    rw [textDecode_append_dash (dash_not_mem_of_mem_textTokens token hcmd.mem_textTokens)]
    exact (tokenCommand_word_ne_zero_iff token value).mpr hcmd

theorem unrecognized_text_iff (m : List Byte) :
    unrecognized (.text m) = true ↔
      ¬ ∃ token value : List Byte, m = token ++ dash :: value ∧ TextCommand token value := by
  rw [← textDecode_word_ne_zero_iff, not_not, unrecognized, decide_eq_true_eq]

/-- An unrecognized command is a NOP: a reserved word, or a message that decodes to word 0x00. -/
theorem decode_of_unrecognized {c : HostCommand} (h : unrecognized c = true) :
    decode c.resolve.1 = .nop := by
  cases c with
  | port w val => exact decode_of_isReserved h
  | text m =>
    have hword : (textDecode m).1 = 0x00 := of_decide_eq_true h
    simp only [HostCommand.resolve, hword]
    rfl

/-! ### SC_OUT_OF_RANGE -/

/-- A clamp moves exactly the values outside its range. -/
theorem clamp_ne_iff {lo hi : ℚ} (h : lo ≤ hi) (x : ℚ) : clamp lo hi x ≠ x ↔ x < lo ∨ hi < x := by
  constructor
  · intro hne
    by_contra hmem
    obtain ⟨hlow, hhigh⟩ := not_or.mp hmem
    exact hne (clamp_of_mem (not_lt.mp hlow) (not_lt.mp hhigh))
  · rintro (hlow | hhigh) heq
    · exact hlow.not_ge (heq ▸ le_clamp x h)
    · exact hhigh.not_ge (heq ▸ clamp_le lo hi x)

/-- A speed above its range stores NOMINAL_VOLTAGE, itself clamped (41_commands R126). -/
theorem speedToVoltage_of_above {c : Config} {x : ℚ} (hspeed : 0 < c.nominalSpeed)
    (hx : c.nominalSpeed ≤ x) : speedToVoltage c x = clampVoltage c.nominalVoltage := by
  rw [speedToVoltage, clamp_of_ge hspeed.le hx, mul_div_cancel_right₀ _ hspeed.ne']
  rfl

theorem outOfRange_iff {c : Config} (hspeed : 0 ≤ c.nominalSpeed) (st : OperatingState) (v : ℚ)
    (i : Instr) :
    outOfRange c st v i = true ↔
      (i = .setVoltage ∧ st.settable = true ∧ (v < 0 ∨ 12 < v)) ∨
        (i = .dcMotorSpeed ∧ (v < 0 ∨ c.nominalSpeed < v)) := by
  have hvolts : clampVoltage v ≠ v ↔ v < 0 ∨ 12 < v := clamp_ne_iff vMax_nonneg v
  cases i <;> simp [outOfRange, hvolts, clamp_ne_iff hspeed]

theorem clampVoltage_of_outside {v : ℚ} (h : v < 0 ∨ 12 < v) :
    clampVoltage v = if v < 0 then 0 else 12 := by
  split_ifs with hlow
  · exact clampVoltage_of_nonpos hlow.le
  · exact clampVoltage_of_ge (h.resolve_left hlow).le

theorem speedToVoltage_of_outside {c : Config} {v : ℚ} (hspeed : 0 < c.nominalSpeed)
    (h : v < 0 ∨ c.nominalSpeed < v) :
    speedToVoltage c v = if v < 0 then 0 else min 12 (max 0 c.nominalVoltage) := by
  split_ifs with hlow
  · exact speedToVoltage_of_nonpos hspeed.le hlow.le
  · exact speedToVoltage_of_above hspeed (h.resolve_left hlow).le

/-! ### The four labels together -/

/-- Settles O53: each label holds where its `_iff` lemma says, and its response is the loop's
interlock, the closed gate, NOP, or the clamp of a value outside its range. -/
theorem safetyConditionsHaveTheirResponses : Obligations.SafetyConditionsHaveTheirResponses := by
  refine ⟨fun s => ⟨overcurrent_mem_loopConditions s, fun h => ?_⟩, fun s i => ?_, fun s i => ?_,
    fun s i hcfg hval => ?_⟩
  · obtain ⟨hs, hover⟩ := (overcurrent_mem_loopConditions s).mp h
    rw [loop_of_overcurrent hs hover]
    exact ⟨rfl, rfl, rfl, rfl⟩
  · rw [invalidTransition_mem_commandConditions, invalidTransition_iff, mem_idle_userControl_iff,
      Bool.not_eq_true]
    exact ⟨Iff.rfl, fun ⟨hs, hgated⟩ => exec_of_gated hgated hs⟩
  · rw [unrecognized_mem_commandConditions]
    refine ⟨fun w val hcmd => ?_, fun m hcmd => ?_, fun h => ?_⟩
    · rw [hcmd]
      exact (unmatched_iff_isReserved w).symm
    · rw [hcmd]
      exact unrecognized_text_iff m
    · have hnop : i.instr = .nop := decode_of_unrecognized h
      exact ⟨hnop, by rw [hnop]; rfl⟩
  · obtain ⟨-, -, -, hspeed, -, -⟩ := s.cfg.wf_iff.mp hcfg
    rw [outOfRange_mem_commandConditions, ← hval, outOfRange_iff hspeed.le,
      mem_idle_userControl_iff]
    refine ⟨Iff.rfl, Or.imp ?_ ?_⟩
    · rintro ⟨hi, hs, hout⟩
      rw [hi, exec_setVoltage_of_settable hs, clampVoltage_of_outside hout]
      exact ⟨rfl, rfl⟩
    · rintro ⟨hi, hout⟩
      rw [hi, ← speedToVoltage_of_outside hspeed hout]
      exact ⟨rfl, rfl⟩

end Sys2Proof.Machine
end

section
/-! PROOFS of the statements on reset and hazards (70_reset_and_hazards): the reset state's table
(R230) and the stale filter in IDLE (R251). -/

namespace Sys2Proof.Machine

/-! ## The reset state (70_reset_and_hazards R230) -/

/-- Settles O40: the slots are `resetWith_zeroed`, the other fields are as `State.resetWith` writes
them. -/
theorem resetStateIsTheTable : Obligations.ResetStateIsTheTable := by
  rintro c s rfl
  exact ⟨rfl, rfl, rfl, rfl, rfl, rfl, resetWith_zeroed c, List.length_replicate, rfl, rfl, rfl,
    rfl⟩

/-! ## A stale filter in IDLE (70_reset_and_hazards R251) -/

theorem exec_keeps_idle {i : Instr} {s t : State} (hs : s.state = .idle)
    (hi : i ∉ [.dcStart, .openChip, .closeChip]) (h : exec i s = .next t) : t.state = .idle := by
  simp only [List.mem_cons, List.not_mem_nil, or_false, not_or] at hi
  simpa [hi, hs] using exec_state h

/-- No command changes the average. -/
theorem exec_filterAverage {i : Instr} {s t : State} (h : exec i s = .next t) :
    filterAverage t = filterAverage s := by
  rw [filterAverage, filterAverage, exec_buf h, exec_cfg h]

/-- In IDLE the interlock stops the motor on the filter it finds, since the loop takes no sample. -/
theorem loop_of_idle_overcurrent {s : State} (hs : s.state = .idle)
    (hover : s.cfg.maxCurrent < filterAverage s) : loop s = emergencyStop s := by
  have hsample : sampleStep s = s := sampleStep_of_idle hs
  rw [loop_of_overcurrent (by simp [hs]) (by rwa [hsample]), hsample]

/-- Settles O52: the command leaves IDLE and the average as they are, so the loop is the interlock's
emergency stop, which keeps the filter. What the tick emits before it are the command's events. -/
theorem staleFilterRefiresTheInterlock : Obligations.StaleFilterRefiresTheInterlock := by
  intro s hcfg hmem hd hs hover hi
  obtain ⟨u, hu, hstep⟩ := exists_exec_and_step hcfg hmem hd
  have hidle : u.state = .idle := exec_keeps_idle ((latch_state s _).trans hs) hi hu
  have hstale : u.cfg.maxCurrent < filterAverage u := by
    rw [exec_cfg hu, exec_filterAverage hu]
    exact hover
  have hevents : u.emissions = s.emissions ++ commandEvents (nextInput s).instr :=
    congrArg HostView.emissions (exec_hostView hu)
  refine ⟨loop u, commandEvents (nextInput s).instr, hstep, ?_⟩
  rw [loop_of_idle_overcurrent hidle hstale, ← hevents]
  exact ⟨rfl, rfl, rfl, rfl, (exec_buf hu).trans (latch_buf s _), hstale, rfl⟩

end Sys2Proof.Machine
end

section
/-! PROOFS of the statements on fixed words and lines, and on the agreement of the command word's
decoder and encoder (30_encoding sections 2 and 3, 95_test_vectors). -/

namespace Sys2Proof

/-- The word of an instruction is read back as that instruction; the row of DC_MOTOR_DIR once per
direction. -/
@[simp] theorem decode_encode (i : Instr) : decode (encode i) = i := by
  cases i with
  | dcMotorDir d => cases d <;> rfl
  | nop | dcStop | dcStart | dcMotorSpeed | openChip | closeChip | setVoltage => rfl

/-- Settles O3: a word is reserved, and then it decodes to NOP, or it is the word of the instruction
it decodes to. -/
theorem decodeAndEncodeAgree : Obligations.DecodeAndEncodeAgree := by
  refine ⟨decode_encode, fun w i => ⟨?_, ?_⟩⟩
  · rintro rfl
    cases hres : isReserved w with
    | false => exact .inl (encode_decode_of_not_reserved hres).symm
    | true => exact .inr ⟨decode_of_isReserved hres, rfl⟩
  · rintro (rfl | ⟨rfl, hres⟩)
    · exact decode_encode i
    · exact decode_of_isReserved hres

/-- Settles O1: nine words are those of the opcode map's rows, the other eight are reserved. -/
theorem wordsDecodeAsTabulated : Obligations.WordsDecodeAsTabulated :=
  ⟨decode_encode .nop, decode_encode .dcStop, decode_encode .dcStart,
    decode_encode (.dcMotorDir .downward), decode_encode (.dcMotorDir .upward),
    decode_encode .dcMotorSpeed, decode_encode .openChip, decode_encode .closeChip,
    decode_encode .setVoltage, decode_of_isReserved rfl, decode_of_isReserved rfl,
    decode_of_isReserved rfl, decode_of_isReserved rfl, decode_of_isReserved rfl,
    decode_of_isReserved rfl, decode_of_isReserved rfl, decode_of_isReserved rfl⟩

/-- Settles O6: the reader computes each of these lines; the last one gives OPEN_CHIP an operand,
which `operandMnemonic` does not take. -/
theorem listingLinesRead : Obligations.ListingLinesRead :=
  ⟨rfl, rfl, rfl, rfl, rfl, rfl⟩

end Sys2Proof
end

section
/-! PROOFS of two facts about single states: the bounds of the filter's average (40_filter R101,
R103) and the invariant at reset (10_state R37, R38). -/

namespace Sys2Proof.Machine

/-! ## The average lies among the slots -/

/-- The quotient grows with the dividend. -/
theorem tdivNat_mono {a b : Int} {n : Nat} (hn : 0 < n) (h : a ≤ b) : tdivNat a n ≤ tdivNat b n :=
  Int.tdiv_le_tdiv (by exact_mod_cast hn) h

/-- The mean of `n` equal slots is their value. -/
theorem tdivNat_nsmul {n : Nat} (hn : 0 < n) (v : Int) : tdivNat (n • v) n = v := by
  rw [nsmul_eq_mul]
  exact Int.mul_tdiv_cancel_left v (by exact_mod_cast hn.ne')

/-- Settles O24: the sum of the N slots lies between N times each bound, and the quotient by N is
monotone. -/
theorem averageLiesAmongTheSlots : Obligations.AverageLiesAmongTheSlots := by
  intro s lo hi hwf hslots
  obtain ⟨hlen, hcur⟩ := (memory_wf_iff s).mp hwf
  have hn : 0 < s.cfg.n := by omega
  have hlow : s.cfg.n • lo ≤ s.buf.sum :=
    hlen ▸ s.buf.card_nsmul_le_sum lo fun v hv => (hslots v hv).1
  have hhigh : s.buf.sum ≤ s.cfg.n • hi :=
    hlen ▸ s.buf.sum_le_card_nsmul hi fun v hv => (hslots v hv).2
  constructor
  · calc lo = tdivNat (s.cfg.n • lo) s.cfg.n := (tdivNat_nsmul hn lo).symm
      _ ≤ filterAverage s := tdivNat_mono hn hlow
  · calc filterAverage s ≤ tdivNat (s.cfg.n • hi) s.cfg.n := tdivNat_mono hn hhigh
      _ = hi := tdivNat_nsmul hn hi

/-! ## The invariant at reset -/

theorem resetWith_blockInv {c : Config} (hc : c.wf = true) : BlockInv (State.resetWith c) where
  config := hc
  filter := resetWith_wf c hc
  slots := fun _ hv => .inl (List.eq_of_mem_replicate hv)
  voltage := ⟨le_rfl, vMax_nonneg⟩
  idle := iff_of_true rfl rfl
  pending := ⟨nofun, fun hs => absurd rfl hs⟩
  outputs := rfl
  clock := le_rfl

/-- Settles O42: `State.reset` is the case of configuration EX. -/
theorem resetMeetsTheInvariant : Obligations.ResetMeetsTheInvariant :=
  ⟨fun _ => resetWith_blockInv, resetWith_blockInv (by decide)⟩

end Sys2Proof.Machine
end

section
/-! PROOFS of what the host cannot see (10_state R36, R38): a relation between states that every
part of a tick keeps, and that shows the host one view, hides what it lets differ. Two such
relations let `pendingState` and `phaseStartTime` differ outside STARTING, and the place of the
filter's window. -/

namespace Sys2Proof.Machine

/-! ## Relations that hide what they let differ -/

/-- All that decides whether a tick starts, and on which input, agrees. -/
structure SameStart (s t : State) : Prop where
  cfg : t.cfg = s.cfg
  form : Memory.wf t = Memory.wf s
  ports : t.ports = s.ports
  supplied : t.supplied = s.supplied
  ticks : t.ticks = s.ticks

theorem SameStart.nextInput {s t : State} (h : SameStart s t) :
    nextInput t = nextInput s := by
  simp only [Machine.nextInput, drawnInput, h.cfg, h.ports, h.supplied, h.ticks]

theorem SameStart.symm {s t : State} (h : SameStart s t) : SameStart t s :=
  ⟨h.cfg.symm, h.form.symm, h.ports.symm, h.supplied.symm, h.ticks.symm⟩

/-- Where a tick starts in one state it starts in the other, on the same input. -/
theorem SameStart.fetch {s t l : State} (h : SameStart s t) (hf : fetch s = .next l) :
    fetch t = .next (latch t (Machine.nextInput s)) := by
  obtain ⟨hcfg, hform, hclock, hsample, -⟩ := fetch_eq_next.mp hf
  refine fetch_eq_next.mpr ⟨by rwa [h.cfg], by rwa [h.form], ?_, ?_, by rw [h.nextInput]⟩
  · rwa [h.nextInput, clockDuty, h.ports]
  · rwa [h.nextInput, sampleDuty, h.cfg]

/-- A tick that starts completes, since no command stops it. -/
theorem SameStart.step_answers {s t s' : State} (h : SameStart s t) (hstep : step s = .next s') :
    ∃ t', step t = .next t' := by
  obtain ⟨l, -, hf, -, -⟩ := step_eq_next.mp hstep
  obtain ⟨v, hv⟩ := exec_total _ (latch t (Machine.nextInput s))
  exact ⟨loop v, step_eq_next.mpr ⟨_, v, h.fetch hf, hv, rfl⟩⟩

/-- Related states look the same to the host, start their ticks alike, give the loop the same to
judge, and stay related through each part of a tick. -/
structure HidesFromHost (R : State → State → Prop) : Prop where
  view {s t} : R s t → t.hostView = s.hostView
  start {s t} : R s t → SameStart s t
  state {s t} : R s t → t.state = s.state
  average {s t} : R s t → filterAverage t = filterAverage s
  latch {s t} (i : TickInput) : R s t → R (latch s i) (latch t i)
  exec {s t u} (i : Instr) : R s t → exec i s = .next u → ∃ v, exec i t = .next v ∧ R u v
  sample {s t} : R s t → R (sampleStep s) (sampleStep t)
  emit {s t} : R s t → R (emit s) (emit t)
  disable {s t} : R s t → R (disable s) (disable t)
  filterReset {s t} : R s t → R (filterReset s) (filterReset t)
  startingExit {s t} : s.state = .starting → R s t → R (startingExit s) (startingExit t)

section HidesFromHost
variable {R : State → State → Prop} {s t : State}

theorem HidesFromHost.thresholdStop (h : HidesFromHost R) (hst : R s t) :
    R (thresholdStop s) (thresholdStop t) := h.filterReset (h.disable hst)

/-- A threshold stop under one condition on both sides, met or not. -/
theorem HidesFromHost.thresholdStop_if (h : HidesFromHost R) (hst : R s t) (p : Prop)
    [Decidable p] :
    R (if p then Machine.thresholdStop s else s) (if p then Machine.thresholdStop t else t) := by
  split_ifs
  · exact h.thresholdStop hst
  · exact hst

theorem HidesFromHost.branch (h : HidesFromHost R) (hst : R s t) (current : Int) :
    R (branch s current) (branch t current) := by
  have hcfg : t.cfg = s.cfg := (h.start hst).cfg
  cases hs : s.state with
  | idle => simpa only [Machine.branch, h.state hst, hs] using hst
  | userControl => simpa only [Machine.branch, h.state hst, hs] using h.emit hst
  | starting =>
    simpa only [Machine.branch, h.state hst, hs] using h.emit (h.startingExit hs hst)
  | openChip =>
    simpa only [Machine.branch, h.state hst, hs, openChipStop, hcfg] using
      h.emit (h.thresholdStop_if hst _)
  | closeChip =>
    simpa only [Machine.branch, h.state hst, hs, closeChipStop, hcfg] using
      h.emit (h.thresholdStop_if hst _)

/-- The interlock and the branch are chosen by the state and the average, which are not hidden. -/
theorem HidesFromHost.judge (h : HidesFromHost R) (hst : R s t) : R (judge s) (judge t) := by
  have hfires : interlockFires t (filterAverage s) = interlockFires s (filterAverage s) := by
    rw [interlockFires, interlockFires, h.state hst, (h.start hst).cfg]
  rw [Machine.judge, Machine.judge, h.average hst, hfires]
  split_ifs
  · exact h.emit (h.disable hst)
  · exact h.branch hst _

theorem HidesFromHost.loop (h : HidesFromHost R) (hst : R s t) : R (loop s) (loop t) :=
  h.judge (h.sample hst)

/-- A tick from related states latches one input, applies one command and ends related. -/
theorem HidesFromHost.step (h : HidesFromHost R) (hst : R s t) {s' : State}
    (hstep : step s = .next s') : ∃ t', step t = .next t' ∧ R s' t' := by
  obtain ⟨l, u, hf, he, rfl⟩ := step_eq_next.mp hstep
  obtain ⟨-, -, -, -, rfl⟩ := fetch_eq_next.mp hf
  obtain ⟨v, hv, huv⟩ := h.exec _ (h.latch (nextInput s) hst) he
  exact ⟨_, step_eq_next.mpr ⟨_, v, (h.start hst).fetch hf, hv, rfl⟩, h.loop huv⟩

/-- A run whose first tick stops shows the host nothing more. -/
theorem viewOf_runTicks_succ_of_stop (k : Nat) (hs : ∀ s', Machine.step s ≠ .next s') :
    viewOf (runTicks (k + 1) s) = none := by
  cases hstep : Machine.step s with
  | next s' => exact absurd hstep (hs s')
  | fault r => rw [runTicks_succ_of_fault k hstep]; rfl
  | refused r => rw [runTicks_succ_of_refused k hstep]; rfl

/-- Related states give the host one view after every number of ticks: the next tick stops in both,
or it answers related states. -/
theorem HidesFromHost.viewOf_runTicks (h : HidesFromHost R) (k : Nat) (hst : R s t) :
    viewOf (runTicks k t) = viewOf (runTicks k s) := by
  induction k generalizing s t with
  | zero => exact congrArg some (h.view hst)
  | succ k ih =>
    by_cases hs : ∃ s', Machine.step s = .next s'
    · obtain ⟨s', hs'⟩ := hs
      obtain ⟨t', ht', hst'⟩ := h.step hst hs'
      rw [runTicks_succ_of_next k hs', runTicks_succ_of_next k ht']
      exact ih hst'
    · have ht : ∀ t', Machine.step t ≠ .next t' :=
        fun t' ht' => hs ((h.start hst).symm.step_answers ht')
      rw [viewOf_runTicks_succ_of_stop k (not_exists.mp hs), viewOf_runTicks_succ_of_stop k ht]

end HidesFromHost

/-! ## The fields of a STARTING phase (10_state R25, R28) -/

/-- A state with other fields of a STARTING phase. -/
def State.withPhase (s : State) (p : OperatingState) (time : Nat) : State :=
  { s with pendingState := p, phaseStartTime := time }

/-- The same state, or two that are not in STARTING and differ in the fields of its phase only. -/
def SamePhase (s t : State) : Prop :=
  t = s ∨ s.state ≠ .starting ∧ ∃ p time, t = s.withPhase p time

/-- A command either writes both fields, where it enters STARTING, or reads neither. -/
theorem exec_withPhase {i : Instr} {s u : State} (hs : s.state ≠ .starting)
    (h : exec i s = .next u) (p : OperatingState) (time : Nat) :
    exec i (s.withPhase p time) = .next u ∨
      u.state ≠ .starting ∧ exec i (s.withPhase p time) = .next (u.withPhase p time) := by
  cases i with
  | nop | dcMotorSpeed =>
    obtain rfl := Host.Outcome.next.inj h
    exact .inr ⟨hs, rfl⟩
  | dcStop =>
    obtain rfl := Host.Outcome.next.inj h
    exact .inr ⟨nofun, rfl⟩
  | openChip | closeChip => exact .inl h
  | dcStart | dcMotorDir _ | setVoltage =>
    obtain rfl := Host.Outcome.next.inj h
    cases hset : s.state.settable <;>
    simp [exec, execDcStart, execDcMotorDir, execSetVoltage, State.withPhase, hset, hs,
      enterStarting]

theorem SamePhase.of_withPhase {s : State} (hs : s.state ≠ .starting) (p : OperatingState)
    (time : Nat) : SamePhase s (s.withPhase p time) := .inr ⟨hs, p, time, rfl⟩

/-- An update that leaves the fields of the phase alone, and does not enter STARTING, keeps the
relation. -/
theorem SamePhase.map {f : State → State} {s t : State}
    (hf : ∀ s p time, f (s.withPhase p time) = (f s).withPhase p time)
    (hs : s.state ≠ .starting → (f s).state ≠ .starting) (h : SamePhase s t) :
    SamePhase (f s) (f t) := by
  obtain rfl | ⟨hstate, p, time, rfl⟩ := h
  · exact .inl rfl
  · exact .inr ⟨hs hstate, p, time, hf s p time⟩

theorem sampleStep_withPhase (s : State) (p : OperatingState) (time : Nat) :
    sampleStep (s.withPhase p time) = (sampleStep s).withPhase p time := by
  cases hs : s.state.samples with
  | true =>
    rw [sampleStep_of_samples hs, sampleStep_of_samples (s := s.withPhase p time) hs]
    rfl
  | false => rw [sampleStep_of_not hs, sampleStep_of_not (s := s.withPhase p time) hs]

theorem samePhase_hidesFromHost : HidesFromHost SamePhase where
  view := by rintro s t (rfl | ⟨-, p, time, rfl⟩) <;> rfl
  start := by rintro s t (rfl | ⟨-, p, time, rfl⟩) <;> exact ⟨rfl, rfl, rfl, rfl, rfl⟩
  state := by rintro s t (rfl | ⟨-, p, time, rfl⟩) <;> rfl
  average := by rintro s t (rfl | ⟨-, p, time, rfl⟩) <;> rfl
  latch i := .map (f := (Machine.latch · i)) (fun _ _ _ => rfl) id
  exec i := by
    rintro (rfl | ⟨hs, p, time, rfl⟩) hu
    · exact ⟨_, hu, .inl rfl⟩
    · obtain hv | ⟨hu', hv⟩ := exec_withPhase hs hu p time
      · exact ⟨_, hv, .inl rfl⟩
      · exact ⟨_, hv, .of_withPhase hu' p time⟩
  sample := .map sampleStep_withPhase fun hs => by rwa [sampleStep_state]
  emit := .map (fun _ _ _ => rfl) id
  disable := .map (fun _ _ _ => rfl) fun _ => nofun
  filterReset := .map (fun _ _ _ => rfl) id
  startingExit := by
    rintro s t hstarting (rfl | ⟨hs, -⟩)
    · exact .inl rfl
    · exact absurd hstarting hs

/-- Settles O54: the two states are in the relation `SamePhase`, which hides the two fields. -/
theorem pendingFieldsHiddenOutsideStarting : Obligations.PendingFieldsHiddenOutsideStarting :=
  fun _ p time k hs => samePhase_hidesFromHost.viewOf_runTicks k (.of_withPhase hs p time)

/-! ## The cursor (10_state R30) -/

/-- A state with another filter. -/
def State.withFilter (s : State) (b : List Int) (c : Nat) : State :=
  { s with buf := b, cursor := c }

/-- Another filter for the state, in form and with the same samples in the order of their age: only
the place of the window's start differs. -/
structure EqualWindow (s : State) (b : List Int) (c : Nat) : Prop where
  form : Memory.wf s = true
  otherForm : Memory.wf (s.withFilter b c) = true
  window : (s.withFilter b c).window = s.window

/-- Two states that differ in the place of the filter's window only. -/
def SameWindow (s t : State) : Prop := ∃ b c, EqualWindow s b c ∧ t = s.withFilter b c

section EqualWindow
variable {s u : State} {b : List Int} {c : Nat}

/-- Only the constants and the filter of the state count. -/
theorem EqualWindow.congr (h : EqualWindow s b c) (hcfg : u.cfg = s.cfg) (hbuf : u.buf = s.buf)
    (hcursor : u.cursor = s.cursor) : EqualWindow u b c where
  form := (memory_wf_congr hcfg hbuf hcursor).trans h.form
  otherForm := (memory_wf_congr (s := s.withFilter b c) (t := u.withFilter b c) hcfg rfl rfl).trans
    h.otherForm
  window := h.window.trans (by rw [State.window, State.window, hbuf, hcursor])

/-- A sample enters both windows at the end and pushes the same oldest sample out. -/
theorem EqualWindow.filterSample (h : EqualWindow s b c) (raw : Int) :
    EqualWindow (filterSample s raw) (b.set c raw) ((c + 1) % s.cfg.n) where
  form := filterSample_wf s raw h.form
  otherForm := filterSample_wf _ raw h.otherForm
  window := by
    rw [window_filterSample s raw h.form, ← h.window]
    exact window_filterSample _ raw h.otherForm

/-- N zeros are the same window from any place. -/
theorem EqualWindow.of_zeroed (hs : Memory.wf s = true) (hbuf : s.buf = List.replicate s.cfg.n 0)
    (hc : c < s.cfg.n) : EqualWindow s s.buf c where
  form := hs
  otherForm := (memory_wf_iff _).mpr ⟨((memory_wf_iff s).mp hs).1, hc⟩
  window := by simp only [State.window, State.withFilter, hbuf, List.rotate_replicate]

end EqualWindow

/-- An update that reads and writes neither the filter nor the constants keeps the relation. -/
theorem SameWindow.map {f : State → State} {s t : State}
    (hf : ∀ s b c, f (s.withFilter b c) = (f s).withFilter b c) (hcfg : (f s).cfg = s.cfg)
    (h : SameWindow s t) : SameWindow (f s) (f t) := by
  obtain ⟨b, c, hw, rfl⟩ := h
  have hself : f s = (f s).withFilter s.buf s.cursor := hf s s.buf s.cursor
  exact ⟨b, c, hw.congr hcfg (congrArg State.buf hself:) (congrArg State.cursor hself:), hf s b c⟩

theorem SameWindow.filterReset {s t : State} (h : SameWindow s t) :
    SameWindow (filterReset s) (filterReset t) := by
  obtain ⟨b, c, hw, rfl⟩ := h
  obtain ⟨-, hc⟩ := (memory_wf_iff _).mp hw.otherForm
  exact ⟨_, c, .of_zeroed (filterReset_wf s hw.form) rfl hc, rfl⟩

/-- The end of STARTING is decided by the clock alone (42_tick R156). -/
theorem SameWindow.startingExit {s t : State} (h : SameWindow s t) :
    SameWindow (startingExit s) (startingExit t) := by
  have hexit : SameWindow { Machine.filterReset s with state := s.pendingState }
      { Machine.filterReset t with state := t.pendingState } :=
    h.filterReset.map (f := fun s => { s with state := s.pendingState }) (fun _ _ _ => rfl) rfl
  have hsettled : settled t t.ports.tl = settled s s.ports.tl := by
    obtain ⟨b, c, -, rfl⟩ := h
    rfl
  rw [Machine.startingExit, Machine.startingExit, hsettled]
  split_ifs
  · exact hexit
  · exact h

/-- No command reads the filter (10_state R21). -/
theorem exec_withFilter {i : Instr} {s u : State} (h : exec i s = .next u) (b : List Int)
    (c : Nat) : exec i (s.withFilter b c) = .next (u.withFilter b c) := by
  cases i with
  | nop | dcStop | dcMotorSpeed | openChip | closeChip =>
    obtain rfl := Host.Outcome.next.inj h
    rfl
  | dcStart | dcMotorDir _ | setVoltage =>
    obtain rfl := Host.Outcome.next.inj h
    cases hset : s.state.settable <;>
    simp [exec, execDcStart, execDcMotorDir, execSetVoltage, State.withFilter, hset, enterStarting]

theorem sameWindow_hidesFromHost : HidesFromHost SameWindow where
  view := by rintro s t ⟨b, c, -, rfl⟩; rfl
  start := by
    rintro s t ⟨b, c, hw, rfl⟩
    exact ⟨rfl, hw.otherForm.trans hw.form.symm, rfl, rfl, rfl⟩
  state := by rintro s t ⟨b, c, -, rfl⟩; rfl
  average := by
    rintro s t ⟨b, c, hw, rfl⟩
    rw [filterAverage_eq_window, filterAverage_eq_window, hw.window]
    rfl
  latch i := .map (f := (Machine.latch · i)) (fun _ _ _ => rfl) rfl
  exec i := by
    rintro ⟨b, c, hw, rfl⟩ hu
    obtain ⟨-, hcursor, hcfg, -⟩ := commandsLeaveTheFilterAlone i _ _ hu
    exact ⟨_, exec_withFilter hu b c, b, c, hw.congr hcfg (exec_buf hu) hcursor, rfl⟩
  sample := by
    rintro s t ⟨b, c, hw, rfl⟩
    cases hs : s.state.samples with
    | true =>
      rw [sampleStep_of_samples hs, sampleStep_of_samples (s := s.withFilter b c) hs]
      exact ⟨_, _, hw.filterSample s.ports.raw, rfl⟩
    | false =>
      rw [sampleStep_of_not hs, sampleStep_of_not (s := s.withFilter b c) hs]
      exact ⟨b, c, hw, rfl⟩
  emit := .map (fun _ _ _ => rfl) rfl
  disable := .map (fun _ _ _ => rfl) rfl
  filterReset := .filterReset
  startingExit _ := .startingExit

/-- Settles O55: over a zeroed filter both cursors start the same window (`SameWindow`), and that
relation hides the filter's place. -/
theorem cursorHiddenFromAZeroedFilter : Obligations.CursorHiddenFromAZeroedFilter :=
  fun s c k hwf hc hbuf => sameWindow_hidesFromHost.viewOf_runTicks k
    ⟨s.buf, c, .of_zeroed hwf hbuf hc, rfl⟩

end Sys2Proof.Machine
end
